-- ==== Sys2Proof/Word.lean ====
section
/-! DEFINITION. The word types of the block (00_scope R9, R14). -/

namespace Sys2Proof

/-- A register address, a register value, a channel operand, a data byte: `u8` (R9, R14). -/
abbrev Byte := BitVec 8

/-- A command word on `cmd_word`: `u32` (R14, R60). -/
abbrev Command := BitVec 32

/-- A response word on `rsp_word`: `u16` (R14, R65). -/
abbrev Response := BitVec 16

/-- The channel-enable vector `st.ch_en`: `u12`, bit `k` for channel `k` (R14, R22). -/
abbrev ChannelVec := BitVec 12

end Sys2Proof
end

