-- ==== Sys2Proof/Config.lean ====
section
/-! DEFINITION. The parameters a block is built with (00_scope §4) and the values the spec leaves open.
The free values are constants with no body: no proof can see what they are, so a claim that mentions
one holds whatever it is. -/

namespace Sys2Proof

/-- The two open knobs of the block, "as an argument" of the model (00_scope R11, R12; log 4). -/
structure Params where
  /-- `FINAL_ECHO_CHECK` (R11): is the reply to INIT's transfer 15 echo-checked? -/
  finalEchoCheck : Bool
  /-- `SW_RESET_ADDR` (R12): the address of the software-reset register. -/
  swResetAddr : Byte
deriving DecidableEq, Repr

namespace Config

/-- `NUM_CHANNELS` (R8): fixed, not a parameter. -/
def numChannels : Nat := 12

/-- `INIT_LEN` (R10): 15 table writes and the status-reset write (conflict C1). -/
def initLen : Nat := 16

/-- The constraint of R12 on `SW_RESET_ADDR`: outside 0x48..0x53, 0x56, 0x57 and 0x6B. -/
def swAdmitted (a : Byte) : Bool :=
  !(decide (0x48#8 ≤ a) && decide (a ≤ 0x53#8)) && a != 0x56#8 && a != 0x57#8 && a != 0x6B#8

/-- Every address R12 admits for `SW_RESET_ADDR`, in rising order. -/
def admittedAddrs : List Byte := ((List.range 256).map (BitVec.ofNat 8)).filter swAdmitted

theorem admittedAddrs_length : admittedAddrs.length = 241 := by decide +kernel

/-- FREE VALUE (log 4): which of the admitted addresses is the software-reset register's. -/
opaque swResetIndex : Fin 241

theorem swResetIndex_lt : swResetIndex.val < admittedAddrs.length := by
  rw [admittedAddrs_length]
  exact swResetIndex.isLt

/-- `SW_RESET_ADDR` of the machine after reset: any address R12 admits, and only those (log 4). -/
def swResetAddr : Byte :=
  admittedAddrs.get ⟨swResetIndex.val, swResetIndex_lt⟩

/-- FREE VALUE (R25, log 7): `st.step` after a command has completed, where it is not observable. -/
opaque idleStep : Nat → Fin 16

/-- FREE VALUE (R28, log 7): `xfer_tx0` after a command has completed, where it carries no meaning. -/
opaque idleTx0 : Nat → Byte

/-- FREE VALUE (R28, log 7): `xfer_tx1` after a command has completed, where it carries no meaning. -/
opaque idleTx1 : Nat → Byte

/-- FREE VALUE (R49, R162, log 10): did the chip receive the bytes of a transfer that failed, or that
`rst` abandoned? Both must be admitted. -/
opaque chipReceived : Nat → Bool

end Config
end Sys2Proof
end

