-- ==== Sys2Proof/Syntax.lean ====
section
/-! DEFINITION. The eight commands (30_encoding R61, R62), one constructor per row of the opcode table, and
the closed enumeration of register names (00_scope R2, 20_memory R41). -/

namespace Sys2Proof

/-- A host command with its operands. A channel operand is the whole 8-bit field: 12..255 can be encoded and are
the INVALID_CHANNEL case, not illegal words (R64). -/
inductive Instr where
  /-- `INIT` (R91) -/
  | init
  /-- `IS_INITIALIZED` (R110) -/
  | isInitialized
  /-- `ENABLE_CHANNEL ch` (R112) -/
  | enableChannel (ch : Byte)
  /-- `DISABLE_CHANNEL ch` (R113) -/
  | disableChannel (ch : Byte)
  /-- `UPDATE_ALL_CHANNELS` (R117) -/
  | updateAllChannels
  /-- `SET_CHANNEL_CALIBRATION ch, value` (R122) -/
  | setChannelCalibration (ch value : Byte)
  /-- `ADDR_OF regid` (R82) -/
  | addrOf (regid : Byte)
  /-- `DECODE_ADDR addr` (R83) -/
  | decodeAddr (addr : Byte)
deriving DecidableEq, Repr

/-- The symbolic register names of R41 and R68: a closed set of 25. -/
inductive RegName where
  | cal (k : Fin 12)
  | chEn0to5
  | chEn6to11
  | statusReset
  | swReset
  | rsv6C
  | rsv79
  | rsv7A
  | rsv7B
  | rsvB5
  | rsvB6
  | rsvB7
  | rsvB8
  | rsvB9
deriving DecidableEq, Repr

/-- An operand of the assembler form (R72): a number, decimal or hexadecimal, or a register name of R68 (log 18). -/
inductive AsmOperand where
  | num (n : Nat)
  | reg (name : String)
deriving DecidableEq, Repr

end Sys2Proof
end

