-- ==== Sys2Proof/Decode.lean ====
section
/-! DEFINITION. The command encoding of 30_encoding: the fields of a word (R60), the opcode table (R61, R62), the
register ids (R68, R69), the total decoder (R63, R73) and the encoder. Parametrised by `SW_RESET_ADDR`, on which
R69 makes the legality of ADDR_OF depend. -/

namespace Sys2Proof

/-! ## Fields of a command word (R60) -/

/-- `cmd[3:0]` -/
def cmdOp (w : Command) : BitVec 4 := w.extractLsb' 0 4
/-- `cmd[7:4]`, must be zero -/
def cmdZ0 (w : Command) : BitVec 4 := w.extractLsb' 4 4
/-- `cmd[15:8]` -/
def cmdCh (w : Command) : Byte := w.extractLsb' 8 8
/-- `cmd[23:16]` -/
def cmdArg (w : Command) : Byte := w.extractLsb' 16 8
/-- `cmd[31:24]`, must be zero -/
def cmdZ1 (w : Command) : Byte := w.extractLsb' 24 8

/-! ## Opcodes (R61) -/

def opInit : BitVec 4 := 0x1
def opIsInitialized : BitVec 4 := 0x2
def opEnableChannel : BitVec 4 := 0x3
def opDisableChannel : BitVec 4 := 0x4
def opUpdateAllChannels : BitVec 4 := 0x5
def opSetChannelCalibration : BitVec 4 := 0x6
def opAddrOf : BitVec 4 := 0x8
def opDecodeAddr : BitVec 4 := 0x9

/-- A row of the opcode table of R62: a word `w` matches the row when `w &&& mask = pattern`. -/
structure OpcodeRow where
  mnemonic : String
  mask : Command
  pattern : Command
deriving DecidableEq, Repr

/-- The opcode table of R62. -/
def opcodeTable : List OpcodeRow := [
  ⟨"INIT", 0xFFFFFFFF, 0x00000001⟩,
  ⟨"IS_INITIALIZED", 0xFFFFFFFF, 0x00000002⟩,
  ⟨"ENABLE_CHANNEL", 0xFFFF00FF, 0x00000003⟩,
  ⟨"DISABLE_CHANNEL", 0xFFFF00FF, 0x00000004⟩,
  ⟨"UPDATE_ALL_CHANNELS", 0xFFFFFFFF, 0x00000005⟩,
  ⟨"SET_CHANNEL_CALIBRATION", 0xFF0000FF, 0x00000006⟩,
  ⟨"ADDR_OF", 0xFF00FFFF, 0x00000008⟩,
  ⟨"DECODE_ADDR", 0xFF00FFFF, 0x00000009⟩]

/-- `(cmd & mask) == match` (R62). -/
def OpcodeRow.hit (r : OpcodeRow) (w : Command) : Bool := w &&& r.mask == r.pattern

/-! ## Register ids (R68, R69) -/

/-- `RSV_ADDR` (R80): the addresses of the reserved ids 0x10..0x18, in order. -/
def rsvAddr : List Byte := [0x6C, 0x79, 0x7A, 0x7B, 0xB5, 0xB6, 0xB7, 0xB8, 0xB9]

/-- `is_name(id)` (R69): ids 0x00..0x18, less a reserved id whose address is `SW_RESET_ADDR`. -/
def isName (sw id : Byte) : Bool :=
  if id ≤ 0x0F#8 then true
  else
    match rsvAddr[(id - 0x10#8).toNat]? with
    | some a => a != sw
    | none => false

/-- The register id of a symbolic name (R68). -/
def RegName.id : RegName → Byte
  | .cal k => BitVec.ofNat 8 k.val
  | .chEn0to5 => 0x0C
  | .chEn6to11 => 0x0D
  | .statusReset => 0x0E
  | .swReset => 0x0F
  | .rsv6C => 0x10
  | .rsv79 => 0x11
  | .rsv7A => 0x12
  | .rsv7B => 0x13
  | .rsvB5 => 0x14
  | .rsvB6 => 0x15
  | .rsvB7 => 0x16
  | .rsvB8 => 0x17
  | .rsvB9 => 0x18

/-- The spelling of a symbolic name (R68). -/
def RegName.text : RegName → String
  | .cal k => "CAL" ++ toString k.val
  | .chEn0to5 => "CH_EN_0_5"
  | .chEn6to11 => "CH_EN_6_11"
  | .statusReset => "STATUS_RESET"
  | .swReset => "SW_RESET"
  | .rsv6C => "RSV_6C"
  | .rsv79 => "RSV_79"
  | .rsv7A => "RSV_7A"
  | .rsv7B => "RSV_7B"
  | .rsvB5 => "RSV_B5"
  | .rsvB6 => "RSV_B6"
  | .rsvB7 => "RSV_B7"
  | .rsvB8 => "RSV_B8"
  | .rsvB9 => "RSV_B9"

/-- Every symbolic name, in the order of the ids (R68). -/
def allRegNames : List RegName :=
  (List.finRange 12).map .cal ++
    [.chEn0to5, .chEn6to11, .statusReset, .swReset, .rsv6C, .rsv79, .rsv7A, .rsv7B, .rsvB5, .rsvB6, .rsvB7,
      .rsvB8, .rsvB9]

/-! ## The decoder -/

/-- Why a word names no command (R63). -/
inductive DecodeError where
  /-- opcode 0x0, 0x7 or 0xA..0xF -/
  | illegalOpcode (op : BitVec 4)
  /-- an assigned opcode with a set bit in a must-be-zero field -/
  | mustBeZero (op : BitVec 4)
  /-- ADDR_OF of an `arg` that is no register id (R69) -/
  | notARegister (id : Byte)
deriving DecidableEq, Repr

/-- `i` if the must-be-zero fields of `op`'s row are zero (R62). -/
def ifZero (op : BitVec 4) (fieldsZero : Bool) (i : Instr) : Except DecodeError Instr :=
  if fieldsZero then .ok i else .error (.mustBeZero op)

/-- The decoder (R63, R73): total on every word, and it needs only the word (R71). -/
def decode (sw : Byte) (w : Command) : Except DecodeError Instr :=
  let z := cmdZ0 w == 0#4 && cmdZ1 w == 0#8
  let noCh := cmdCh w == 0#8
  let noArg := cmdArg w == 0#8
  match cmdOp w with
  | 0x1#4 => ifZero 0x1 (z && noCh && noArg) .init
  | 0x2#4 => ifZero 0x2 (z && noCh && noArg) .isInitialized
  | 0x3#4 => ifZero 0x3 (z && noArg) (.enableChannel (cmdCh w))
  | 0x4#4 => ifZero 0x4 (z && noArg) (.disableChannel (cmdCh w))
  | 0x5#4 => ifZero 0x5 (z && noCh && noArg) .updateAllChannels
  | 0x6#4 => ifZero 0x6 z (.setChannelCalibration (cmdCh w) (cmdArg w))
  | 0x8#4 =>
    if z && noCh then
      if isName sw (cmdArg w) then .ok (.addrOf (cmdArg w)) else .error (.notARegister (cmdArg w))
    else .error (.mustBeZero 0x8)
  | 0x9#4 => ifZero 0x9 (z && noCh) (.decodeAddr (cmdArg w))
  | op => .error (.illegalOpcode op)

/-- The instruction read from the table's bits (log 15): a command is one 32-bit word that crosses the port as 32
parallel bits, with no byte order of its own (R60, R71), so a longer instruction is none. -/
def decodeTableWord (nbits w : Nat) : Option Instr :=
  if nbits ≤ 32 then (decode Config.swResetAddr (BitVec.ofNat 32 (w % 2 ^ nbits))).toOption else none

/-! ## The encoder -/

/-- A command word from its fields, with `z0` and `z1` zero (R60). -/
def packCommand (op : BitVec 4) (ch arg : Byte) : Command :=
  (arg.zeroExtend 32 <<< 16) ||| (ch.zeroExtend 32 <<< 8) ||| op.zeroExtend 32

/-- The word of a command (R61, R62, R64): unused fields are zero. -/
def encode : Instr → Command
  | .init => packCommand opInit 0 0
  | .isInitialized => packCommand opIsInitialized 0 0
  | .enableChannel ch => packCommand opEnableChannel ch 0
  | .disableChannel ch => packCommand opDisableChannel ch 0
  | .updateAllChannels => packCommand opUpdateAllChannels 0 0
  | .setChannelCalibration ch value => packCommand opSetChannelCalibration ch value
  | .addrOf regid => packCommand opAddrOf 0 regid
  | .decodeAddr addr => packCommand opDecodeAddr 0 addr

/-! ## Assembler form (R72) -/

/-- The mnemonic of a command (R61, R72). -/
def Instr.mnemonic : Instr → String
  | .init => "INIT"
  | .isInitialized => "IS_INITIALIZED"
  | .enableChannel _ => "ENABLE_CHANNEL"
  | .disableChannel _ => "DISABLE_CHANNEL"
  | .updateAllChannels => "UPDATE_ALL_CHANNELS"
  | .setChannelCalibration _ _ => "SET_CHANNEL_CALIBRATION"
  | .addrOf _ => "ADDR_OF"
  | .decodeAddr _ => "DECODE_ADDR"

/-- A numeric operand: 0..255 (R72). -/
def asmByte (n : Nat) : Option Byte := if n < 256 then some (BitVec.ofNat 8 n) else none

/-- The register id of an ADDR_OF operand: "a name of rule R68, or a numeric id" (R72). -/
def asmRegister : AsmOperand → Option Byte
  | .num n => asmByte n
  | .reg t => (allRegNames.find? fun r => r.text == t).map RegName.id

/-- A command from its mnemonic and operands (R72); none where R72 has no such form (log 18). -/
def assemble (mnemonic : String) (operands : List AsmOperand) : Option Instr :=
  match mnemonic, operands with
  | "INIT", [] => some .init
  | "IS_INITIALIZED", [] => some .isInitialized
  | "ENABLE_CHANNEL", [.num ch] => (asmByte ch).map .enableChannel
  | "DISABLE_CHANNEL", [.num ch] => (asmByte ch).map .disableChannel
  | "UPDATE_ALL_CHANNELS", [] => some .updateAllChannels
  | "SET_CHANNEL_CALIBRATION", [.num ch, .num value] =>
    (asmByte ch).bind fun c => (asmByte value).map fun v => .setChannelCalibration c v
  | "ADDR_OF", [r] => (asmRegister r).map .addrOf
  | "DECODE_ADDR", [.num addr] => (asmByte addr).map .decodeAddr
  | _, _ => none

/-- The operands of a command, in the order R72 writes them. -/
def Instr.asmOperands : Instr → List AsmOperand
  | .init => []
  | .isInitialized => []
  | .enableChannel ch => [.num ch.toNat]
  | .disableChannel ch => [.num ch.toNat]
  | .updateAllChannels => []
  | .setChannelCalibration ch value => [.num ch.toNat, .num value.toNat]
  | .addrOf regid => [.num regid.toNat]
  | .decodeAddr addr => [.num addr.toNat]

end Sys2Proof
end

