-- ==== Sys2Proof/Machine/Operands.lean ====
section
/-! DEFINITION. What the commands compute from their operands: the channel check, the channel-enable vector and its
packer (42_channels), the register address decoder (40_address_decoder) and the constant tables (10_state R30, R31). -/

namespace Sys2Proof.Machine

/-! ## Constants (R30, R31) -/

/-- `INIT_SEQ` (R30): sixteen (address, value) pairs, a literal contract to be sent verbatim (R101). -/
def initSeq : Vector (Byte × Byte) 16 := #v[
  (0x6C, 0xA1), (0x6C, 0xA1), (0xB5, 0x9E), (0xB6, 0x00), (0xB5, 0x9E), (0xB7, 0x00), (0xB5, 0x9E), (0xB8, 0x00),
  (0xB5, 0x9E), (0xB9, 0x00), (0x79, 0xD6), (0x7A, 0x00), (0x79, 0xD6), (0x7B, 0x00), (0x6C, 0xA1), (0x6B, 0x3F)]

/-- `CAL_BASE` (R31) -/
def calBase : Byte := 0x48
/-- `GRP0_ADDR` (R31): channels 0 to 5 -/
def grp0Addr : Byte := 0x56
/-- `GRP1_ADDR` (R31): channels 6 to 11 -/
def grp1Addr : Byte := 0x57
/-- `STATUS_RESET_ADDR` (R31) -/
def statusResetAddr : Byte := 0x6B
/-- `STATUS_RESET_VAL` (R31) -/
def statusResetVal : Byte := 0x3F

/-! ## Channels -/

/-- `valid_ch(ch)` (R111): the 8-bit field, unsigned, below 12. -/
def validCh (ch : Byte) : Bool := decide (ch.toNat < Config.numChannels)

/-- `cal_addr(ch)` (R121): 8-bit addition, which does not wrap for a valid channel. -/
def calAddr (ch : Byte) : Byte := calBase + ch

/-- `ch_en[ch] <- on` (R112, R113): one bit of the vector. -/
def setChannel (e : ChannelVec) (ch : Byte) (on : Bool) : ChannelVec :=
  if on then e ||| BitVec.twoPow 12 ch.toNat else e &&& ~~~(BitVec.twoPow 12 ch.toNat)

/-- `pack0(e) = 0b00 ++ e[5:0]` (R115) -/
def pack0 (e : ChannelVec) : Byte := (e.extractLsb' 0 6).zeroExtend 8

/-- `pack1(e) = 0b00 ++ e[11:6]` (R115) -/
def pack1 (e : ChannelVec) : Byte := (e.extractLsb' 6 6).zeroExtend 8

/-! ## Register address decoder -/

/-- `addr_of(id)` (R80): defined for every name, none for an id that is not one (R69). -/
def addrOf (sw id : Byte) : Option Byte :=
  if isName sw id then
    if id ≤ 0x0B#8 then some (calBase + id)
    else if id = 0x0C#8 then some grp0Addr
    else if id = 0x0D#8 then some grp1Addr
    else if id = 0x0E#8 then some statusResetAddr
    else if id = 0x0F#8 then some sw
    else rsvAddr[(id - 0x10#8).toNat]?
  else none

/-- `decode(a)` (R81): the id of a raw address, none where the spec answers InvalidAddress. `SW_RESET_ADDR` is
tested before the reserved addresses. -/
def idOfAddr (sw a : Byte) : Option Byte :=
  if 0x48#8 ≤ a ∧ a ≤ 0x53#8 then some (a - calBase)
  else if a = grp0Addr then some 0x0C
  else if a = grp1Addr then some 0x0D
  else if a = statusResetAddr then some 0x0E
  else if a = sw then some 0x0F
  else (rsvAddr.idxOf? a).map fun i => 0x10#8 + BitVec.ofNat 8 i

end Sys2Proof.Machine
end

