-- ==== Sys2Proof/Machine/Flags.lean ====
section
/-! DEFINITION. What a command reports: the result codes and the response word (30_encoding R65 to R67), the flag's
byte (R110), and INIT's echo check (41_init R92 to R94). -/

namespace Sys2Proof.Machine

/-- The results of R66. -/
inductive ResultCode where
  | ok
  | busError
  | commError
  | notInitialized
  | invalidChannel
  | invalidAddress
  | illegalCommand
deriving DecidableEq, Repr

/-- The code of a result (R66); 0x7..0xF are never produced. -/
def resultBits : ResultCode → BitVec 4
  | .ok => 0x0
  | .busError => 0x1
  | .commError => 0x2
  | .notInitialized => 0x3
  | .invalidChannel => 0x4
  | .invalidAddress => 0x5
  | .illegalCommand => 0x6

/-- `rsp = (zext_16(data) << 8) | zext_16(code)` (R65). -/
def rspWord (c : ResultCode) (data : Byte) : Response :=
  (data.zeroExtend 16 <<< 8) ||| (resultBits c).zeroExtend 16

/-- `zext_8(st.initialized)` (R67, R110). -/
def flagByte (b : Bool) : Byte := if b then 0x01 else 0x00

/-- A transfer index as a data byte (R14, R67). -/
def transferIndex (t : Fin 16) : Byte := BitVec.ofNat 8 t.val

/-- Is the reply `(r0, r1)` to INIT's transfer `t` accepted (R91)? Transfer 0 is never checked (R92); 1..14 must
echo the previous pair (R93); 15 only if `FINAL_ECHO_CHECK` (R94). -/
def echoAccepted (finalEchoCheck : Bool) (t : Fin 16) (r0 r1 : Byte) : Bool :=
  if 1 ≤ t.val ∧ (t.val ≤ 14 ∨ finalEchoCheck = true) then (r0, r1) == initSeq[t - 1] else true

end Sys2Proof.Machine
end

