-- ==== Sys2Proof/Machine/State.lean ====
section
/-! DEFINITION. The machine's state as plain data: the block's fields (10_state R20 to R29), its parameters
(00_scope R11, R12), the input events still to come (R7, R13) and the observation so far (R16). -/

namespace Sys2Proof.Machine

/-- `st.phase` (R24). -/
inductive Phase where
  /-- no command in progress -/
  | idle
  /-- a command accepted, exactly one of its transfers outstanding -/
  | busy
  /-- the command has completed, its response is held -/
  | resp
deriving DecidableEq, Repr

/-- The outcome of one transfer (R13, R46): any two reply bytes, or failure. -/
inductive XferOutcome where
  | ok (rx0 rx1 : Byte)
  | err
deriving DecidableEq, Repr

/-- One event on the block's input ports (R7). Events come one at a time (log 1, 2). -/
inductive PortEvent where
  /-- `rst` is asserted -/
  | rst
  /-- `cmd_valid` with `cmd_word` -/
  | command (w : Command)
  /-- `xfer_done`, with `xfer_err` and the reply bytes -/
  | xferDone (o : XferOutcome)
  /-- `rsp_ready` -/
  | rspReady
deriving DecidableEq, Repr

/-- One transfer of the trace (R16): the pair sent and its outcome, which is none for a transfer that `rst`
abandoned (R162, log 11). -/
structure Transfer where
  addr : Byte
  value : Byte
  outcome : Option XferOutcome
deriving DecidableEq, Repr

/-- Bytes by register address, addresses strictly rising; an unlisted address reads as no value (log 9). -/
abbrev Memory := List Host.Cell

/-- Why the machine stops with a fault. -/
inductive Fault where
  /-- Raised by an `xfer_done` in BUSY when the latched opcode is one that issues no transfer. No rule gives this
  an effect and no run reaches it (`Inv`). Safe: the model stops where the spec says nothing (log 12). -/
  | busyWithoutTransfer
deriving DecidableEq, Repr

/-- Why a step is refused. -/
inductive Refusal where
  /-- Raised by exec's arm of an instruction that has no meaning yet; every instruction of this model has one.
  Safe: the model stops. -/
  | notModelled (mnemonic : String)
deriving DecidableEq, Repr

/-- The machine's state. -/
structure State where
  /-- `FINAL_ECHO_CHECK`, `SW_RESET_ADDR`: fixed for one machine (R11, R12, log 4) -/
  cfg : Params
  /-- `st.initialized` (R20) -/
  initialized : Bool
  /-- `st.ch_en` (R22) -/
  chEn : ChannelVec
  /-- `st.phase` (R24) -/
  phase : Phase
  /-- `st.step` (R25) -/
  step : Fin 16
  /-- `st.op` (R27) -/
  op : BitVec 4
  /-- `st.ch` (R27) -/
  ch : Byte
  /-- `st.arg` (R27) -/
  arg : Byte
  /-- `xfer_tx0` (R28) -/
  tx0 : Byte
  /-- `xfer_tx1` (R28) -/
  tx1 : Byte
  /-- `st.rsp` (R29) -/
  rsp : Response
  /-- the port events still to come, the next one first (R7, R13, log 1) -/
  inputs : List PortEvent
  /-- the responses the host has taken, oldest first (R16) -/
  responses : List Response
  /-- the transfers that have ended, oldest first (R16) -/
  transfers : List Transfer
  /-- the bytes delivered into the chip's register space (R40, R49, log 9) -/
  delivered : Memory
  /-- the model's own: selects the next free values (log 7, 10) -/
  draws : Nat
deriving DecidableEq, Repr

/-- The machine right after reset (R34, R160): not initialized, all channels disabled, IDLE, no transfer. The
fields R34 leaves unspecified are 0 (log 6). -/
def State.reset : State where
  cfg := ⟨false, Config.swResetAddr⟩
  initialized := false
  chEn := 0x000
  phase := .idle
  step := 0
  op := 0
  ch := 0
  arg := 0
  tx0 := 0
  tx1 := 0
  rsp := 0
  inputs := []
  responses := []
  transfers := []
  delivered := []
  draws := 0

end Sys2Proof.Machine
end

