-- ==== Sys2Proof/Machine/Ops.lean ====
section
/-! DEFINITION. The named operations on the state: the delivered bytes, the transfer primitive BusWrite (20_memory
R44), completing a command and raising an error (60_exceptions R140), the two precondition checks (R148), taking a
response and `rst` (70_reset R160 to R162). -/

namespace Sys2Proof.Machine

/-! ## Delivered bytes (R40, log 9) -/

/-- The byte last delivered to an address, none where nothing was. -/
def Memory.read : Memory → Nat → Option Byte
  | [], _ => none
  | c :: m, a => if c.1 = a then some c.2 else Memory.read m a

/-- Deliver a byte to an address, keeping the addresses strictly rising. -/
def Memory.write : Memory → Nat → Byte → Memory
  | [], a, v => [(a, v)]
  | c :: m, a, v =>
    if a < c.1 then (a, v) :: c :: m
    else if a = c.1 then (a, v) :: m
    else c :: Memory.write m a v

/-- The canonical form: addresses strictly rising and within the 256 of R40. (An unlisted address reads as no
value, so no entry can equal it.) -/
abbrev Memory.wf (m : Memory) : Prop := m.Pairwise (fun c d => c.1 < d.1) ∧ ∀ c ∈ m, c.1 < 256

/-! ## Transfers -/

/-- Latch the accepted command's fields (R26, R27). -/
def State.latch (op : BitVec 4) (ch arg : Byte) (s : State) : State :=
  { s with op := op, ch := ch, arg := arg }

/-- Drive transfer `t` on the transfer port (R25, R28, R44): BUSY, with the address on `xfer_tx0` and the value on
`xfer_tx1` (R47). -/
def State.request (t : Fin 16) (addr value : Byte) (s : State) : State :=
  { s with phase := .busy, step := t, tx0 := addr, tx1 := value }

/-- What the outcome of the outstanding transfer delivers to the chip: its byte if it succeeded; if it failed, or
was abandoned (none), the byte may or may not have arrived (R49, R162, log 10). -/
def State.delivery (o : Option XferOutcome) (s : State) : Memory :=
  match o with
  | some (.ok _ _) => Memory.write s.delivered s.tx0.toNat s.tx1
  | some .err => if Config.chipReceived s.draws then Memory.write s.delivered s.tx0.toNat s.tx1 else s.delivered
  | none => if Config.chipReceived s.draws then Memory.write s.delivered s.tx0.toNat s.tx1 else s.delivered

/-- The outstanding transfer ends with an outcome: it joins the trace (R16). -/
def State.settle (o : XferOutcome) (s : State) : State :=
  { s with
    transfers := s.transfers ++ [⟨s.tx0, s.tx1, some o⟩]
    delivered := s.delivery (some o)
    draws := s.draws + 1 }

/-- The event list without the event that has been handled. -/
def State.withInputs (es : List PortEvent) (s : State) : State := { s with inputs := es }

/-! ## Completing a command (R140) -/

/-- A command ends with a result: RESP, with the response word held (R29, R65). Outside BUSY `st.step` and the
transfer bytes carry no meaning (R25, R28): free values (log 7). -/
def State.respond (c : ResultCode) (data : Byte) (s : State) : State :=
  { s with
    phase := .resp
    rsp := rspWord c data
    step := Config.idleStep s.draws
    tx0 := Config.idleTx0 s.draws
    tx1 := Config.idleTx1 s.draws
    draws := s.draws + 1 }

/-- `complete(data)`: result OK. -/
def complete (data : Byte) (s : State) : State := s.respond .ok data

/-- `raise E(info)` (R140): the command ends at once with result `E` and data `info`, with no further transfer
and no further state change. This is all the block has of an exception: there is no handler and no return (R150). -/
def raise (e : ResultCode) (info : Byte) (s : State) : State := s.respond e info

/-- `BusWrite(a, v)` as transfer `t` of the command (R44), and what the caller does with the reply. A failed
transfer raises BusError(st.step) (R142). Where the next event is no `xfer_done`, the block stays in BUSY with the
transfer outstanding: there is no timeout (R175). -/
def busWrite (t : Fin 16) (addr value : Byte) (onReply : Byte → Byte → State → State) (s : State) : State :=
  let s := s.request t addr value
  match s.inputs with
  | .xferDone (.ok r0 r1) :: es => onReply r0 r1 ((s.withInputs es).settle (.ok r0 r1))
  | .xferDone .err :: es => raise .busError (transferIndex t) ((s.withInputs es).settle .err)
  | _ => s

/-! ## Preconditions, in the order of R148 -/

/-- `if not (ch < 12): raise InvalidChannel(0x00)` (R111, R145). -/
def requireChannel (ch : Byte) (k : State → State) (s : State) : State :=
  if validCh ch then k s else raise .invalidChannel 0x00 s

/-- `if st.initialized == 0: raise NotInitialized(0x00)` (R144). -/
def requireInitialized (k : State → State) (s : State) : State :=
  if s.initialized then k s else raise .notInitialized 0x00 s

/-- `st.ch_en[ch] <- on` (R112, R113). -/
def State.putChannel (ch : Byte) (on : Bool) (s : State) : State :=
  { s with chEn := setChannel s.chEn ch on }

/-- `st.initialized <- 1` (R97). -/
def State.markInitialized (s : State) : State := { s with initialized := true }

/-! ## Response port and reset -/

/-- The host takes the response: RESP to IDLE (R26). -/
def State.takeResponse (s : State) : State :=
  { s with phase := .idle, responses := s.responses ++ [s.rsp] }

/-- `rst` (R160 to R163): every field of the block takes its reset value (R34), in any phase, with no transfer and
no response. An outstanding transfer is abandoned: it ends with no outcome, and whether the chip received it is
unknown (R162, log 10, 11). The parameters, the events to come and the observation so far are not the block's. -/
def State.rst (s : State) : State :=
  { State.reset with
    cfg := s.cfg
    inputs := s.inputs
    responses := s.responses
    transfers := if s.phase = .busy then s.transfers ++ [⟨s.tx0, s.tx1, none⟩] else s.transfers
    delivered := if s.phase = .busy then s.delivery none else s.delivered
    draws := s.draws + 1 }

end Sys2Proof.Machine
end

