-- ==== Sys2Proof/Machine/AddressDecoder.lean ====
section
/-! DEFINITION. ADDR_OF and DECODE_ADDR (40_address_decoder): not gated by initialization, no transfer. -/

namespace Sys2Proof.Machine

/-- `ADDR_OF regid` (R82): the address of a name. An id that is no name is illegal; the decoder refuses such a word
already (R63), so this arm answers the same result (log 14). -/
def execAddrOf (regid : Byte) (s : State) : Host.Outcome State Fault Refusal :=
  .next (match addrOf s.cfg.swResetAddr regid with
    | some a => complete a (s.latch opAddrOf 0 regid)
    | none => raise .illegalCommand 0x00 (s.latch opAddrOf 0 regid))

/-- `DECODE_ADDR addr` (R83): the id of a known address, else INVALID_ADDRESS. -/
def execDecodeAddr (addr : Byte) (s : State) : Host.Outcome State Fault Refusal :=
  .next (match idOfAddr s.cfg.swResetAddr addr with
    | some id => complete id (s.latch opDecodeAddr 0 addr)
    | none => raise .invalidAddress 0x00 (s.latch opDecodeAddr 0 addr))

end Sys2Proof.Machine
end

