-- ==== Sys2Proof/Machine/Channels.lean ====
section
/-! DEFINITION. IS_INITIALIZED and the channel commands (42_channels). -/

namespace Sys2Proof.Machine

/-- `IS_INITIALIZED` (R110). -/
def execIsInitialized (s : State) : Host.Outcome State Fault Refusal :=
  .next (complete (flagByte s.initialized) (s.latch opIsInitialized 0 0))

/-- The body that ENABLE_CHANNEL and DISABLE_CHANNEL share (R112, R113). -/
def switchChannel (ch : Byte) (on : Bool) (s : State) : State :=
  requireChannel ch (requireInitialized fun s => complete 0x00 (s.putChannel ch on)) s

/-- `ENABLE_CHANNEL ch` (R112). -/
def execEnableChannel (ch : Byte) (s : State) : Host.Outcome State Fault Refusal :=
  .next (switchChannel ch true (s.latch opEnableChannel ch 0))

/-- `DISABLE_CHANNEL ch` (R113). -/
def execDisableChannel (ch : Byte) (s : State) : Host.Outcome State Fault Refusal :=
  .next (switchChannel ch false (s.latch opDisableChannel ch 0))

/-- The two group writes of R117, with masks sampled once (R120); the replies are discarded (R119). -/
def flushGroups (m0 m1 : Byte) (s : State) : State :=
  busWrite 0 grp0Addr m0 (fun _ _ s => busWrite 1 grp1Addr m1 (fun _ _ s => complete 0x00 s) s) s

/-- `UPDATE_ALL_CHANNELS` (R117). -/
def execUpdateAllChannels (s : State) : Host.Outcome State Fault Refusal :=
  .next (requireInitialized (fun s => flushGroups (pack0 s.chEn) (pack1 s.chEn) s)
    (s.latch opUpdateAllChannels 0 0))

/-- `SET_CHANNEL_CALIBRATION ch, value` (R122): one write, reply discarded. -/
def execSetChannelCalibration (ch value : Byte) (s : State) : Host.Outcome State Fault Refusal :=
  .next (requireChannel ch
    (requireInitialized fun s => busWrite 0 (calAddr ch) value (fun _ _ s => complete 0x00 s) s)
    (s.latch opSetChannelCalibration ch value))

end Sys2Proof.Machine
end

