-- ==== Sys2Proof/Machine/Init.lean ====
section
/-! DEFINITION. INIT: the handshake (41_init). -/

namespace Sys2Proof.Machine

/-- `st.initialized <- 1; complete(0x00)` (R97): one step, after transfer 15 has been accepted. -/
def initSucceeded (s : State) : State := complete 0x00 s.markInitialized

/-- The loop of R91 over the transfers still to come. -/
def initLoop : List (Fin 16) → State → State
  | [], s => initSucceeded s
  | t :: ts, s =>
    busWrite t initSeq[t].1 initSeq[t].2
      (fun r0 r1 s =>
        if echoAccepted s.cfg.finalEchoCheck t r0 r1 then initLoop ts s
        else raise .commError (transferIndex t) s) s

/-- `INIT` (R90, R91): no precondition; the whole handshake from transfer 0, whatever the flag (R178). -/
def execInit (s : State) : Host.Outcome State Fault Refusal :=
  .next (initLoop (List.finRange 16) (s.latch opInit 0 0))

end Sys2Proof.Machine
end

