-- ==== Sys2Proof/Machine/Dispatch.lean ====
section
/-! DEFINITION. exec: the whole effect of one accepted command, as one transition (00_scope R15), one arm per
constructor. exec does not look at the phase; a command is accepted only in IDLE, which step sees to (log 16). -/

namespace Sys2Proof.Machine

def exec (i : Instr) (s : State) : Host.Outcome State Fault Refusal :=
  match i with
  | .init => Sys2Proof.Machine.execInit s
  | .isInitialized => Sys2Proof.Machine.execIsInitialized s
  | .enableChannel ch => Sys2Proof.Machine.execEnableChannel ch s
  | .disableChannel ch => Sys2Proof.Machine.execDisableChannel ch s
  | .updateAllChannels => Sys2Proof.Machine.execUpdateAllChannels s
  | .setChannelCalibration ch value => Sys2Proof.Machine.execSetChannelCalibration ch value s
  | .addrOf regid => Sys2Proof.Machine.execAddrOf regid s
  | .decodeAddr addr => Sys2Proof.Machine.execDecodeAddr addr s

end Sys2Proof.Machine
end

