-- ==== Sys2Proof/Machine/Ports.lean ====
section
/-! DEFINITION. The block's ports (00_scope R7, 10_state R26): the handshake outputs, what each input event does, and
beside it the event-level machine of R26, in which accepting a command drives at most its first transfer and every
`xfer_done` is a step of its own. R15 asks that the two agree. -/

namespace Sys2Proof.Machine

/-! ## Outputs (R26, R28, R29) -/

/-- `cmd_ready` -/
def State.cmdReady (s : State) : Bool := s.phase == .idle
/-- `rsp_valid` -/
def State.rspValid (s : State) : Bool := s.phase == .resp
/-- `xfer_valid` -/
def State.xferValid (s : State) : Bool := s.phase == .busy
/-- `rsp_word`, while `rsp_valid` (R29) -/
def State.rspOut (s : State) : Option Response := if s.rspValid then some s.rsp else none
/-- `xfer_tx0`, `xfer_tx1`, while `xfer_valid` (R28) -/
def State.xferOut (s : State) : Option (Byte × Byte) := if s.xferValid then some (s.tx0, s.tx1) else none

/-! ## `xfer_done` in BUSY (R26): the latched command's rule, applied to the outcome of transfer `st.step` -/

/-- INIT after a successful transfer (R91): echo check, then the next transfer or success. -/
def continueInit (r0 r1 : Byte) (s : State) : State :=
  if echoAccepted s.cfg.finalEchoCheck s.step r0 r1 then
    if s.step = 15 then initSucceeded s
    else s.request (s.step + 1) initSeq[s.step + 1].1 initSeq[s.step + 1].2
  else raise .commError (transferIndex s.step) s

/-- UPDATE_ALL_CHANNELS after a successful transfer (R117). `st.ch_en` cannot have changed since acceptance (R120). -/
def continueUpdate (s : State) : State :=
  if s.step = 0 then s.request 1 grp1Addr (pack1 s.chEn) else complete 0x00 s

/-- The latched command goes on after a successful transfer. -/
def continueCommand (r0 r1 : Byte) (s : State) : State :=
  if s.op = opInit then continueInit r0 r1 s
  else if s.op = opUpdateAllChannels then continueUpdate s
  else complete 0x00 s

/-- Does a command with this opcode issue transfers (R55)? -/
def issuesTransfers (op : BitVec 4) : Bool :=
  op == opInit || op == opUpdateAllChannels || op == opSetChannelCalibration

/-- `xfer_done` in BUSY (R26, R45). -/
def onXferDone (o : XferOutcome) (s : State) : Host.Outcome State Fault Refusal :=
  if issuesTransfers s.op then
    .next (match o with
      | .ok r0 r1 => continueCommand r0 r1 (s.settle (.ok r0 r1))
      | .err => raise .busError (transferIndex s.step) (s.settle .err))
  else .fault .busyWithoutTransfer

/-! ## `cmd_valid` in IDLE (R26, R63) -/

/-- An illegal word completes at once with ILLEGAL_COMMAND, no transfer and no state change (R63, R147, log 13). -/
def rejectWord (w : Command) (s : State) : State :=
  raise .illegalCommand 0x00 (s.latch (cmdOp w) (cmdCh w) (cmdArg w))

/-- Accept a command word: decode, and the whole command as one transition (R15, R63). -/
def acceptWord (w : Command) (s : State) : Host.Outcome State Fault Refusal :=
  match decode s.cfg.swResetAddr w with
  | .ok i => exec i s
  | .error _ => .next (rejectWord w s)

/-- Accept a command at the event level (R26): latch, apply the checks of its rule, and drive its first transfer
or, where it issues none, compute the response. -/
def acceptFirst (i : Instr) (s : State) : Host.Outcome State Fault Refusal :=
  match i with
  | .init => .next ((s.latch opInit 0 0).request 0 initSeq[0].1 initSeq[0].2)
  | .isInitialized => execIsInitialized s
  | .enableChannel ch => execEnableChannel ch s
  | .disableChannel ch => execDisableChannel ch s
  | .updateAllChannels =>
    .next (requireInitialized (fun s => s.request 0 grp0Addr (pack0 s.chEn)) (s.latch opUpdateAllChannels 0 0))
  | .setChannelCalibration ch value =>
    .next (requireChannel ch (requireInitialized fun s => s.request 0 (calAddr ch) value)
      (s.latch opSetChannelCalibration ch value))
  | .addrOf regid => execAddrOf regid s
  | .decodeAddr addr => execDecodeAddr addr s

/-- `acceptWord` at the event level. -/
def acceptWordFirst (w : Command) (s : State) : Host.Outcome State Fault Refusal :=
  match decode s.cfg.swResetAddr w with
  | .ok i => acceptFirst i s
  | .error _ => .next (rejectWord w s)

/-! ## One input event -/

/-- One event in a state whose `inputs` no longer hold it (R26). An event the phase does not listen to has no
effect: a command outside IDLE is not accepted (R174), an `xfer_done` outside BUSY is ignored (R45), `rsp_ready`
without a response does nothing (log 2). -/
def onEvent (accept : Command → State → Host.Outcome State Fault Refusal) (e : PortEvent) (s : State) :
    Host.Outcome State Fault Refusal :=
  match e with
  | .rst => .next s.rst
  | .command w => if s.phase = .idle then accept w s else .next s
  | .xferDone o => if s.phase = .busy then onXferDone o s else .next s
  | .rspReady => if s.phase = .resp then .next s.takeResponse else .next s

/-- The next event of the list. With no event to come the block waits: in IDLE for the host, in RESP for the host,
in BUSY for the transport, for ever (R153, R156, R175; log 3). -/
def nextEvent (accept : Command → State → Host.Outcome State Fault Refusal) (s : State) :
    Host.Outcome State Fault Refusal :=
  match s.inputs with
  | [] => .next s
  | e :: es => onEvent accept e (s.withInputs es)

/-- The event-level machine (R7, R26). -/
def portStep (s : State) : Host.Outcome State Fault Refusal := nextEvent acceptWordFirst s

/-- The host presents a word to an idle block as its next event (log 15). -/
def State.present (w : Command) (s : State) : State :=
  { s with phase := .idle, inputs := .command w :: s.inputs }

end Sys2Proof.Machine
end

