-- ==== Sys2Proof/Machine/Step.lean ====
section
/-! DEFINITION. One step of the machine: the next input event. A command accepted in IDLE is one transition, which
reads the transport's answers that follow it in the event list (00_scope R15, log 1). -/

namespace Sys2Proof.Machine

/-- One step. -/
def step (s : State) : Host.Outcome State Fault Refusal := nextEvent acceptWord s

/-- `s` with an instruction of `nbits` bits `w` as the word the host presents next to an idle block, so that the
next step accepts and runs it (log 15). -/
def State.withFetchWord (s : State) (nbits w : Nat) : State :=
  s.present (BitVec.ofNat 32 (w % 2 ^ nbits))

end Sys2Proof.Machine
end

