-- ==== Sys2Proof/Safety.lean ====
section
/-! DEFINITION. The terms claims are made in: the observation of a run (00_scope R16), the invariant of the block, what
an answered command leaves, and when two states look alike from outside. -/

namespace Sys2Proof.Machine

/-! ## The observation (R16) -/

/-- "The observation of a run is three things": the responses, the transfers, and the flag and channel state. -/
structure Observation where
  responses : List Response
  transfers : List Transfer
  initialized : Bool
  chEn : ChannelVec
deriving DecidableEq, Repr

def State.observe (s : State) : Observation := ⟨s.responses, s.transfers, s.initialized, s.chEn⟩

/-- The observation at the end of a run, none if it stopped. -/
def observeOutcome : Host.Outcome State Fault Refusal → Option Observation
  | .next s => some s.observe
  | .fault _ => none
  | .refused _ => none

/-! ## What an answered command leaves -/

/-- A response word from its data byte and code number, as a number: data in bits 15:8, zero in 7:4, code in 3:0
(R65). -/
def answerWord (data : Byte) (code : Nat) : Response := BitVec.ofNat 16 (data.toNat * 256 + code)

/-- The command has completed with response `w` (R26, R29), and nothing happened to the parameters (log 4) or to the
responses the host has taken (log 17). `st.step` and the transfer bytes carry no meaning now. -/
def Answered (s t : State) (w : Response) : Prop :=
  t.phase = .resp ∧ t.rsp = w ∧ t.cfg = s.cfg ∧ t.responses = s.responses

/-- The flag and the channel vector are as before. -/
def SameFlags (s t : State) : Prop := t.initialized = s.initialized ∧ t.chEn = s.chEn

/-- No transfer has ended: the trace, the events to come and every delivered byte are as before (log 1, 9, 17). -/
def NoTransfer (s t : State) : Prop :=
  t.transfers = s.transfers ∧ t.inputs = s.inputs ∧ ∀ a, Memory.read t.delivered a = Memory.read s.delivered a

/-- The chip's bytes, outside the addresses listed, are as before. -/
def SameBytesOutside (s t : State) (addrs : List Byte) : Prop :=
  ∀ a : Nat, (∀ b ∈ addrs, a ≠ b.toNat) → Memory.read t.delivered a = Memory.read s.delivered a

/-- The byte at `addr` was delivered, or is as before: both must be admitted for a failed transfer (R49). -/
def MaybeDelivered (s t : State) (addr value : Byte) : Prop :=
  Memory.read t.delivered addr.toNat = some value ∨
    Memory.read t.delivered addr.toNat = Memory.read s.delivered addr.toNat

/-! ## The handshake, as the spec writes it -/

/-- `INIT_SEQ[k]` as a transfer with an outcome. -/
def handshakeTransfer (k : Fin 16) (o : XferOutcome) : Transfer := ⟨initSeq[k].1, initSeq[k].2, some o⟩

/-- The first `n` transfers of the handshake, all successful, with replies `r`. -/
def handshakeRun (n : Nat) (r : Fin 16 → Byte × Byte) : List Transfer :=
  ((List.finRange 16).take n).map fun k => handshakeTransfer k (.ok (r k).1 (r k).2)

/-- The events of `n` successful transfers with replies `r 0`, `r 1`, …. -/
def okAnswers (n : Nat) (r : Fin 16 → Byte × Byte) : List PortEvent :=
  ((List.finRange 16).take n).map fun k => .xferDone (.ok (r k).1 (r k).2)

/-- The reply to transfer `k` passes: the reply to 0 is not checked (R92), that to 1..14 echoes the previous pair
(R93), and that to 15 does so if `FINAL_ECHO_CHECK` (R94). -/
def EchoesPrevious (fec : Bool) (r : Fin 16 → Byte × Byte) (k : Fin 16) : Prop :=
  ∀ j : Fin 16, k.val = j.val + 1 → (k.val = 15 → fec = true) → r k = initSeq[j]

/-- No answer of the transport comes next: the list of events is empty or starts with `rst`, a command or
`rsp_ready`. -/
def NoAnswerNext (es : List PortEvent) : Prop := ∀ o es', es ≠ .xferDone o :: es'

/-- The first `n` pairs of the handshake table, in order. -/
def firstPairs (n : Nat) : List (Byte × Byte) := initSeq.toList.take n

/-- The chip after `n` delivered transfers of the handshake: each address written holds its value (the table writes one
value to each address), and nothing outside the addresses of the first `m` transfers has changed (log 9). -/
def HandshakeBytes (s t : State) (n m : Nat) : Prop :=
  (∀ p ∈ firstPairs n, Memory.read t.delivered p.1.toNat = some p.2) ∧
    SameBytesOutside s t ((firstPairs m).map Prod.fst)

/-- Every reply before transfer `n` passes (R92 to R94). -/
def EchoesUpTo (fec : Bool) (r : Fin 16 → Byte × Byte) (n : Nat) : Prop :=
  ∀ k : Fin 16, k.val < n → EchoesPrevious fec r k

/-! ## The invariant -/

/-- The addresses the block can reach (R43). -/
def reachable (a : Byte) : Bool :=
  [0x6C#8, 0xB5#8, 0xB6#8, 0xB7#8, 0xB8#8, 0xB9#8, 0x79#8, 0x7A#8, 0x7B#8, 0x6B#8, 0x56#8, 0x57#8].contains a ||
    (decide (0x48#8 ≤ a) && decide (a ≤ 0x53#8))

/-- The transfer that the latched command has outstanding at `st.step`, none where it has no such transfer (R25:
the counter's maximum is 15 for INIT, 1 for UPDATE_ALL_CHANNELS, 0 for SET_CHANNEL_CALIBRATION). -/
def State.planned (s : State) : Option (Byte × Byte) :=
  if s.op = opInit then some initSeq[s.step]
  else if s.op = opUpdateAllChannels then
    if s.step = 0 then some (grp0Addr, pack0 s.chEn)
    else if s.step = 1 then some (grp1Addr, pack1 s.chEn)
    else none
  else if s.op = opSetChannelCalibration then
    if s.step = 0 ∧ validCh s.ch = true then some (calAddr s.ch, s.arg) else none
  else none

/-- What holds in every state a run reaches. -/
structure Inv (s : State) : Prop where
  /-- the delivered bytes are in canonical form (log 9) -/
  memory : Memory.wf s.delivered
  /-- `SW_RESET_ADDR` is one R12 admits -/
  swReset : Config.swAdmitted s.cfg.swResetAddr = true
  /-- in BUSY the transfer port carries the latched command's transfer `st.step` (R24, R25, R28) -/
  outstanding : s.phase = .busy → s.planned = some (s.tx0, s.tx1)
  /-- in BUSY a command other than INIT has passed the initialization check (R148) -/
  gated : s.phase = .busy → s.op ≠ opInit → s.initialized = true
  /-- a held response has code 0..6 and zero reserved bits (R65, R66) -/
  response : s.phase = .resp → s.rsp.extractLsb' 4 4 = 0#4 ∧ s.rsp.extractLsb' 0 4 ≤ 6#4
  /-- the block never sent a transfer to an address outside R43's -/
  sent : ∀ x ∈ s.transfers, reachable x.addr = true
  /-- nor was a byte delivered anywhere else -/
  arrived : ∀ c ∈ s.delivered, reachable (BitVec.ofNat 8 c.1) = true
  /-- the chip's group registers hold only masks of six bits (R41, R116) -/
  masks : ∀ c ∈ s.delivered, c.1 = 0x56 ∨ c.1 = 0x57 → c.2.extractLsb' 6 2 = 0#2

/-! ## What cannot be seen (R25, R27, R28, R29, R150) -/

/-- The two states differ at most in what the spec calls not observable: the command latch, the step counter and the
transfer bytes outside BUSY, the response register outside RESP, and the model's own bookkeeping of the chip. -/
structure SameView (a b : State) : Prop where
  cfg : a.cfg = b.cfg
  initialized : a.initialized = b.initialized
  chEn : a.chEn = b.chEn
  phase : a.phase = b.phase
  inputs : a.inputs = b.inputs
  responses : a.responses = b.responses
  transfers : a.transfers = b.transfers
  busy : a.phase = .busy → a.op = b.op ∧ a.ch = b.ch ∧ a.arg = b.arg ∧ a.step = b.step ∧ a.tx0 = b.tx0 ∧ a.tx1 = b.tx1
  resp : a.phase = .resp → a.rsp = b.rsp

/-- Two outcomes that look alike: next states that do, or the same stop. -/
def AlikeOutcomes (o q : Host.Outcome State Fault Refusal) : Prop :=
  (∃ t u, o = .next t ∧ q = .next u ∧ SameView t u) ∨ (∃ f, o = .fault f ∧ q = .fault f) ∨
    ∃ r, o = .refused r ∧ q = .refused r

/-- `n` steps of the event-level machine of R26. -/
def portRun : Nat → State → Host.Outcome State Fault Refusal
  | 0, s => .next s
  | n + 1, s =>
    match portStep s with
    | .next t => portRun n t
    | .fault f => .fault f
    | .refused r => .refused r

end Sys2Proof.Machine
end

