-- ==== Sys2Proof/WellFormed.lean ====
section
/-! DEFINITION. Which commands are well formed. The constructors' fields have the widths of R60 and R64, so the only
check left is R63's and R69's on the operand of ADDR_OF. -/

namespace Sys2Proof

/-- Is the command one that a legal word encodes, for this `SW_RESET_ADDR` (R63, R69)? A channel of 12..255 is
well formed (R64). -/
def WellFormed (sw : Byte) : Instr → Bool
  | .init => true
  | .isInitialized => true
  | .enableChannel _ => true
  | .disableChannel _ => true
  | .updateAllChannels => true
  | .setChannelCalibration _ _ => true
  | .addrOf regid => isName sw regid
  | .decodeAddr _ => true

end Sys2Proof
end

