-- ==== Sys2Proof/Certificates/Slice0/Obligations.lean ====
section
/-! DEFINITION. The statements for the provers. Each docstring names the rule of spec/ it formalises; where a clause is the
model's choice it names the log entry. -/

open Sys2Proof Sys2Proof.Machine

/-! ## Reset and ports -/

/-- 10_state R34: what reset leaves, for the fields the spec gives a value; `FINAL_ECHO_CHECK` has R11's default and
`SW_RESET_ADDR` is one that R12 admits. (The empty observation is the model's: log 17.) -/
def Obligations.ResetState : Prop :=
  State.reset.initialized = false ∧ State.reset.chEn = 0x000 ∧ State.reset.phase = .idle ∧ State.reset.step = 0 ∧
    State.reset.xferValid = false ∧ State.reset.rspValid = false ∧ State.reset.cmdReady = true ∧
    State.reset.cfg.finalEchoCheck = false ∧ Config.swAdmitted State.reset.cfg.swResetAddr = true ∧
    State.reset.transfers = []

/-- 70_reset R160: `rst` in any phase, with no response; a block with no transfer outstanding issues and delivers
nothing (R161). That `rst` keeps the parameters, the events to come and the traces is the model's: log 4, 11. -/
def Obligations.RstFromEveryPhase : Prop :=
  ∀ (s : State) (es : List PortEvent), s.inputs = .rst :: es →
    ∃ t, step s = .next t ∧ t.initialized = false ∧ t.chEn = 0x000 ∧ t.phase = .idle ∧ t.step = 0 ∧
      t.xferValid = false ∧ t.rspValid = false ∧ t.responses = s.responses ∧ t.cfg = s.cfg ∧ t.inputs = es ∧
      (s.phase ≠ .busy →
        t.transfers = s.transfers ∧ ∀ a, Memory.read t.delivered a = Memory.read s.delivered a)

/-- 70_reset R162: `rst` during a command abandons it: no response, and the late `xfer_done` is ignored; the chip may or
may not have received the outstanding transfer, and no other byte changes. -/
def Obligations.RstAbandonsCommand : Prop :=
  ∀ (s : State) (o : XferOutcome) (es : List PortEvent), s.phase ≠ .idle → s.inputs = .rst :: .xferDone o :: es →
    ∃ t u, step s = .next t ∧ t.phase = .idle ∧ t.responses = s.responses ∧
      (s.phase = .busy → MaybeDelivered s t s.tx0 s.tx1 ∧ SameBytesOutside s t [s.tx0]) ∧
      step t = .next u ∧ u = { t with inputs := es }

/-- 10_state R26, R28, R29: the handshake outputs in each phase, and when the response and the transfer bytes are driven. -/
def Obligations.HandshakeOutputs : Prop :=
  ∀ s : State,
    (s.phase = .idle → s.cmdReady = true ∧ s.rspValid = false ∧ s.xferValid = false ∧ s.rspOut = none ∧
      s.xferOut = none) ∧
    (s.phase = .busy → s.cmdReady = false ∧ s.rspValid = false ∧ s.xferValid = true ∧ s.rspOut = none ∧
      s.xferOut = some (s.tx0, s.tx1)) ∧
    (s.phase = .resp → s.cmdReady = false ∧ s.rspValid = true ∧ s.xferValid = false ∧ s.rspOut = some s.rsp ∧
      s.xferOut = none)

/-- 70_reset R174: outside IDLE a presented command is not accepted; nothing changes. (That the attempt leaves the event
list is log 2.) -/
def Obligations.CommandOnlyAcceptedInIdle : Prop :=
  ∀ (s : State) (w : Command) (es : List PortEvent), s.phase ≠ .idle → s.inputs = .command w :: es →
    step s = .next { s with inputs := es }

/-- 20_memory R45: "A `xfer_done` while `xfer_valid = 0` is ignored." -/
def Obligations.LateDoneIgnored : Prop :=
  ∀ (s : State) (o : XferOutcome) (es : List PortEvent), s.phase ≠ .busy → s.inputs = .xferDone o :: es →
    step s = .next { s with inputs := es }

/-- 10_state R26: the host takes the held response, and the block is IDLE. That nothing else changes is the model's
where R26 says the response is dropped: the register and the latch keep their contents (log 8), and the responses taken
are a list in State (log 17). -/
def Obligations.ResponseTaken : Prop :=
  ∀ (s : State) (es : List PortEvent), s.phase = .resp → s.inputs = .rspReady :: es →
    step s = .next { s with phase := .idle, inputs := es, responses := s.responses ++ [s.rsp] }

/-- 70_reset R175: with no `xfer_done` and no `rst` to come, a block in BUSY stays there, its request held stable, and
accepts no command, however many steps it takes. -/
def Obligations.NoTimeout : Prop :=
  ∀ (s : State) (n : Nat), s.phase = .busy → (∀ e ∈ s.inputs, e = .rspReady ∨ ∃ w, e = .command w) →
    ∃ t, Host.Core.run core n s = .next t ∧ t.phase = .busy ∧ t.cmdReady = false ∧ t.step = s.step ∧
      t.xferOut = s.xferOut ∧ t.responses = s.responses ∧ t.transfers = s.transfers ∧ SameFlags s t

/-! ## Running a command word -/

/-- A step runs the decoded instruction: in IDLE a presented word that decodes to a command is that command's
transition, with the word taken from the event list (00_scope R15, 30_encoding R63). -/
def Obligations.StepRunsDecoded : Prop :=
  ∀ (s : State) (w : Command) (es : List PortEvent) (i : Instr), s.phase = .idle → s.inputs = .command w :: es →
    decode s.cfg.swResetAddr w = .ok i → step s = exec i { s with inputs := es }

/-- `withFetchWord` makes the next step run the word's command on the rest of the state in IDLE (log 15). -/
def Obligations.FetchWordRunsNext : Prop :=
  ∀ (s : State) (w : Command) (i : Instr), decode s.cfg.swResetAddr w = .ok i →
    step (s.withFetchWord 32 w.toNat) = exec i { s with phase := .idle }

/-- 60_exceptions R147: a word that names no command completes at once with ILLEGAL_COMMAND and data 0x00, with no
transfer and no state change. (The parameters stand in State by log 4; this reading of R63 is log 13.) -/
def Obligations.IllegalWordAnswered : Prop :=
  ∀ (s : State) (w : Command) (es : List PortEvent) (e : DecodeError), s.phase = .idle →
    s.inputs = .command w :: es → decode s.cfg.swResetAddr w = .error e →
    ∃ t, step s = .next t ∧ t.phase = .resp ∧ t.rsp = 0x0006 ∧ t.cfg = s.cfg ∧ t.responses = s.responses ∧
      SameFlags s t ∧ t.transfers = s.transfers ∧ t.inputs = es ∧
      ∀ a, Memory.read t.delivered a = Memory.read s.delivered a

/-! ## Encoding -/

/-- Decode and encode agree for every well-formed command, at every operand value and every `SW_RESET_ADDR`. -/
def Obligations.DecodeOfEncode : Prop :=
  ∀ (sw : Byte) (i : Instr), WellFormed sw i = true → decode sw (encode i) = .ok i

/-- Each legal word has one meaning, and it is the word its command encodes to. -/
def Obligations.EncodeOfDecode : Prop :=
  ∀ (sw : Byte) (w : Command) (i : Instr), decode sw w = .ok i → encode i = w ∧ WellFormed sw i = true

/-- 30_encoding R73, with R62's rows: every word is either exactly one command (its row's mask and match, and R69's
restriction on ADDR_OF) or illegal, and at most one row matches. -/
def Obligations.DecodeMatchesTable : Prop :=
  ∀ (sw : Byte) (w : Command),
    ((∃ i, decode sw w = .ok i) ↔
      (∃ r ∈ opcodeTable, w &&& r.mask = r.pattern) ∧ (cmdOp w = 0x8 → isName sw (cmdArg w) = true)) ∧
    (∀ i, decode sw w = .ok i → ∃ r ∈ opcodeTable, w &&& r.mask = r.pattern ∧ r.mnemonic = i.mnemonic) ∧
    (∀ r ∈ opcodeTable, ∀ q ∈ opcodeTable, w &&& r.mask = r.pattern → w &&& q.mask = q.pattern → r = q)

/-- 30_encoding R61, R63, R70: the unassigned opcodes, 0x7 among them, are illegal whatever the other bits. -/
def Obligations.UnassignedOpcodesIllegal : Prop :=
  ∀ (sw : Byte) (w : Command), (cmdOp w = 0x0 ∨ cmdOp w = 0x7 ∨ 0xA#4 ≤ cmdOp w) →
    decode sw w = .error (.illegalOpcode (cmdOp w))

/-- 95_test_vectors, the words of sections 1 and 2: one for each command, and one for each way to be illegal. -/
def Obligations.SampleWords : Prop :=
  decode 0xC0 0x00000001 = .ok .init ∧ decode 0xC0 0x00000002 = .ok .isInitialized ∧
    decode 0xC0 0x00000B03 = .ok (.enableChannel 11) ∧ decode 0xC0 0x00000404 = .ok (.disableChannel 4) ∧
    decode 0xC0 0x00000005 = .ok .updateAllChannels ∧
    decode 0xC0 0x00FF0B06 = .ok (.setChannelCalibration 11 0xFF) ∧
    decode 0xC0 0x000C0008 = .ok (.addrOf 0x0C) ∧ decode 0xC0 0x00530009 = .ok (.decodeAddr 0x53) ∧
    decode 0xC0 0x00000007 = .error (.illegalOpcode 7) ∧ decode 0xC0 0x00000011 = .error (.mustBeZero 1) ∧
    decode 0xC0 0x00190008 = .error (.notARegister 0x19) ∧ decode 0x6C 0x00100008 = .error (.notARegister 0x10)

/-- 30_encoding R69: the names are the ids 0x00..0x18, less a reserved id whose address is `SW_RESET_ADDR`. -/
def Obligations.RegisterNames : Prop :=
  ∀ sw id : Byte, isName sw id = true ↔
    id ≤ 0x18#8 ∧
      ∀ p ∈ [(0x10#8, 0x6C#8), (0x11#8, 0x79#8), (0x12#8, 0x7A#8), (0x13#8, 0x7B#8), (0x14#8, 0xB5#8), (0x15#8, 0xB6#8),
        (0x16#8, 0xB7#8), (0x17#8, 0xB8#8), (0x18#8, 0xB9#8)], id = p.1 → p.2 ≠ sw

/-! ## Register address decoder -/

/-- 40_address_decoder R80 and the table of 30_encoding R68: the address of every name. -/
def Obligations.AddressOfEveryName : Prop :=
  ∀ sw : Byte,
    (∀ k : Fin 12, addrOf sw (BitVec.ofNat 8 k.val) = some (BitVec.ofNat 8 (0x48 + k.val))) ∧
    addrOf sw 0x0C = some 0x56 ∧ addrOf sw 0x0D = some 0x57 ∧ addrOf sw 0x0E = some 0x6B ∧ addrOf sw 0x0F = some sw ∧
    (∀ p ∈ [(0x10#8, 0x6C#8), (0x11#8, 0x79#8), (0x12#8, 0x7A#8), (0x13#8, 0x7B#8), (0x14#8, 0xB5#8), (0x15#8, 0xB6#8),
        (0x16#8, 0xB7#8), (0x17#8, 0xB8#8), (0x18#8, 0xB9#8)], p.2 ≠ sw → addrOf sw p.1 = some p.2)

/-- 40_address_decoder R81: "Exactly 25 addresses decode, or 24 when `SW_RESET_ADDR` is one of the reserved
addresses", for every admitted `SW_RESET_ADDR`. -/
def Obligations.DecodableAddressCount : Prop :=
  ∀ sw : Byte, Config.swAdmitted sw = true →
    ((List.range 256).filter fun a => (idOfAddr sw (BitVec.ofNat 8 a)).isSome).length =
      if sw ∈ [0x6C#8, 0x79#8, 0x7A#8, 0x7B#8, 0xB5#8, 0xB6#8, 0xB7#8, 0xB8#8, 0xB9#8] then 24 else 25

/-- 40_address_decoder R85: the two maps are inverse on names, and the forward map is injective, for every admitted
`SW_RESET_ADDR`. -/
def Obligations.AddressRoundTrip : Prop :=
  ∀ sw : Byte, Config.swAdmitted sw = true →
    (∀ id, isName sw id = true → ∃ a, addrOf sw id = some a ∧ idOfAddr sw a = some id) ∧
    (∀ a id, idOfAddr sw a = some id → addrOf sw id = some a) ∧
    (∀ id jd a, addrOf sw id = some a → addrOf sw jd = some a → id = jd)

/-- 40_address_decoder R82: ADDR_OF of a name returns its address, in every state, whatever the flag; the flag, the
vector and the chip are untouched, and so is what the model keeps beside them (log 1, 4, 9, 17). -/
def Obligations.AddrOfAnswers : Prop :=
  ∀ (s : State) (regid : Byte), isName s.cfg.swResetAddr regid = true →
    ∃ t a, exec (.addrOf regid) s = .next t ∧ addrOf s.cfg.swResetAddr regid = some a ∧
      Answered s t (answerWord a 0) ∧ SameFlags s t ∧ NoTransfer s t

/-- 40_address_decoder R82: for an id that is no name the result is ILLEGAL_COMMAND. (The decoder refuses the word
already; that exec answers so as well is log 14; what the model keeps beside the block is log 1, 4, 9,
17.) -/
def Obligations.AddrOfNonName : Prop :=
  ∀ (s : State) (regid : Byte), isName s.cfg.swResetAddr regid = false →
    ∃ t, exec (.addrOf regid) s = .next t ∧ Answered s t 0x0006 ∧ SameFlags s t ∧ NoTransfer s t

/-- 40_address_decoder R81, R83: DECODE_ADDR returns the id of a known address, whose address it is, and
INVALID_ADDRESS for any other; in every state, and nothing else happens (beside the block: log 1, 4, 9, 17). For
`SW_RESET_ADDR` at 0x47, 0x54, 0x55 or 0x58 it answers SW_RESET there: R12 and R81 against R83's corner cases, log 5. -/
def Obligations.DecodeAddrAnswers : Prop :=
  ∀ (s : State) (a : Byte), Config.swAdmitted s.cfg.swResetAddr = true →
    ∃ t, exec (.decodeAddr a) s = .next t ∧ SameFlags s t ∧ NoTransfer s t ∧
      ((∃ id, addrOf s.cfg.swResetAddr id = some a ∧ Answered s t (answerWord id 0)) ∨
        ((∀ id, addrOf s.cfg.swResetAddr id ≠ some a) ∧ Answered s t 0x0005))

/-! ## IS_INITIALIZED, ENABLE_CHANNEL, DISABLE_CHANNEL -/

/-- 42_channels R110: always OK, with the flag as data; no side effect (on what the model keeps beside the block either:
log 1, 4, 9, 17). -/
def Obligations.IsInitializedAnswers : Prop :=
  ∀ s : State, ∃ t, exec .isInitialized s = .next t ∧
    Answered s t (if s.initialized then 0x0100 else 0x0000) ∧ SameFlags s t ∧ NoTransfer s t

/-- 42_channels R112: with a valid channel and the flag set, exactly bit `ch` of the vector becomes 1, with response OK
and no transfer (the events, parameters, traces and delivered bytes that the model keeps: log 1, 4, 9, 17). -/
def Obligations.EnableChannelSetsBit : Prop :=
  ∀ (s : State) (ch : Byte), ch.toNat < 12 → s.initialized = true →
    ∃ t, exec (.enableChannel ch) s = .next t ∧ Answered s t 0x0000 ∧ t.initialized = true ∧ NoTransfer s t ∧
      t.chEn.getLsbD ch.toNat = true ∧ ∀ k, k ≠ ch.toNat → t.chEn.getLsbD k = s.chEn.getLsbD k

/-- 42_channels R113: with a valid channel and the flag set, exactly bit `ch` of the vector becomes 0, with
response OK and no transfer (the events, parameters, traces and delivered bytes that the model keeps: log 1, 4, 9, 17). -/
def Obligations.DisableChannelClearsBit : Prop :=
  ∀ (s : State) (ch : Byte), ch.toNat < 12 → s.initialized = true →
    ∃ t, exec (.disableChannel ch) s = .next t ∧ Answered s t 0x0000 ∧ t.initialized = true ∧ NoTransfer s t ∧
      t.chEn.getLsbD ch.toNat = false ∧ ∀ k, k ≠ ch.toNat → t.chEn.getLsbD k = s.chEn.getLsbD k

/-- 42_channels R114: enabling an enabled channel, or disabling a disabled one, is a success that changes nothing, and
neither mutation is visible on the chip. -/
def Obligations.MutationsIdempotent : Prop :=
  ∀ (s : State) (ch : Byte) (on : Bool), ch.toNat < 12 → s.initialized = true → s.chEn.getLsbD ch.toNat = on →
    ∃ t, exec (if on then .enableChannel ch else .disableChannel ch) s = .next t ∧ t.rsp = 0x0000 ∧ t.phase = .resp ∧
      SameFlags s t ∧ NoTransfer s t

/-- 60_exceptions R145, 42_channels R111: an index of 12 or more gives INVALID_CHANNEL, whether or not the block is
initialized, before any transfer, and leaves all state unchanged. -/
def Obligations.InvalidChannelFirst : Prop :=
  ∀ (s : State) (ch value : Byte) (i : Instr), 12 ≤ ch.toNat →
    i = .enableChannel ch ∨ i = .disableChannel ch ∨ i = .setChannelCalibration ch value →
    ∃ t, exec i s = .next t ∧ t.phase = .resp ∧ t.rsp = 0x0004 ∧ t.cfg = s.cfg ∧ t.responses = s.responses ∧
      SameFlags s t ∧ NoTransfer s t

/-- 60_exceptions R144: before a successful INIT the four gated commands, with a valid index, give NOT_INITIALIZED,
before any transfer, and leave all state unchanged. -/
def Obligations.NotInitializedGate : Prop :=
  ∀ (s : State) (ch value : Byte) (i : Instr), ch.toNat < 12 → s.initialized = false →
    i = .enableChannel ch ∨ i = .disableChannel ch ∨ i = .updateAllChannels ∨ i = .setChannelCalibration ch value →
    ∃ t, exec i s = .next t ∧ t.phase = .resp ∧ t.rsp = 0x0003 ∧ t.cfg = s.cfg ∧ t.responses = s.responses ∧
      SameFlags s t ∧ NoTransfer s t

/-! ## The packer and UPDATE_ALL_CHANNELS -/

/-- 42_channels R116: the packer lane by lane, its zero high bits, its range, that the pair loses no channel, and the
document's worked example. -/
def Obligations.PackerLaws : Prop :=
  ∀ e : ChannelVec,
    (∀ k, k < 6 → (pack0 e).getLsbD k = e.getLsbD k ∧ (pack1 e).getLsbD k = e.getLsbD (k + 6)) ∧
    (pack0 e).extractLsb' 6 2 = 0#2 ∧ (pack1 e).extractLsb' 6 2 = 0#2 ∧
    (pack0 e).toNat ≤ 0x3F ∧ (pack1 e).toNat ≤ 0x3F ∧
    (pack1 e).toNat * 64 + (pack0 e).toNat = e.toNat ∧
    pack0 0x451 = 0x11 ∧ pack1 0x451 = 0x11

/-- 42_channels R117, R119, R120: when both transfers succeed, the masks of the vector at acceptance go to 0x56 and
then 0x57, whatever the replies; no other byte, and neither the flag nor the vector, changes. That a
successful transfer is delivered is log 9; the parameters, events and traces in State are log 1, 4, 17. -/
def Obligations.UpdateFlushesBothGroups : Prop :=
  ∀ (s : State) (r0 r1 q0 q1 : Byte) (es : List PortEvent), s.initialized = true →
    s.inputs = .xferDone (.ok r0 r1) :: .xferDone (.ok q0 q1) :: es →
    ∃ t, exec .updateAllChannels s = .next t ∧ Answered s t 0x0000 ∧ SameFlags s t ∧ t.inputs = es ∧
      t.transfers = s.transfers ++ [⟨0x56, pack0 s.chEn, some (.ok r0 r1)⟩, ⟨0x57, pack1 s.chEn, some (.ok q0 q1)⟩] ∧
      Memory.read t.delivered 0x56 = some (pack0 s.chEn) ∧ Memory.read t.delivered 0x57 = some (pack1 s.chEn) ∧
      SameBytesOutside s t [0x56, 0x57]

/-- 42_channels R118: "in channel-group order (0–5 first, then 6–11)"; a failure of the first write aborts before the
second. The failed byte may or may not have arrived (R49); after a failure at transfer 1 group 0 has been written
(70_reset R170). That a successful transfer is delivered is log 9; that the failed 0x57 write may have arrived too, where
R170 says it has not been written, is log 19; the parameters, events and traces in State are log 1, 4, 17. -/
def Obligations.UpdateAbortsOnFailure : Prop :=
  ∀ (s : State) (es : List PortEvent), s.initialized = true →
    (s.inputs = .xferDone .err :: es →
      ∃ t, exec .updateAllChannels s = .next t ∧ Answered s t 0x0001 ∧ SameFlags s t ∧ t.inputs = es ∧
        t.transfers = s.transfers ++ [⟨0x56, pack0 s.chEn, some .err⟩] ∧
        MaybeDelivered s t 0x56 (pack0 s.chEn) ∧ SameBytesOutside s t [0x56]) ∧
    (∀ r0 r1, s.inputs = .xferDone (.ok r0 r1) :: .xferDone .err :: es →
      ∃ t, exec .updateAllChannels s = .next t ∧ Answered s t 0x0101 ∧ SameFlags s t ∧ t.inputs = es ∧
        t.transfers = s.transfers ++ [⟨0x56, pack0 s.chEn, some (.ok r0 r1)⟩, ⟨0x57, pack1 s.chEn, some .err⟩] ∧
        Memory.read t.delivered 0x56 = some (pack0 s.chEn) ∧ MaybeDelivered s t 0x57 (pack1 s.chEn) ∧
        SameBytesOutside s t [0x56, 0x57])

/-! ## SET_CHANNEL_CALIBRATION -/

/-- 42_channels R121: the calibration address map, and that it is the decoder's map for ids 0x00..0x0B. -/
def Obligations.CalibrationAddressMap : Prop :=
  ∀ sw ch : Byte, ch.toNat < 12 → (calAddr ch).toNat = 0x48 + ch.toNat ∧ addrOf sw ch = some (calAddr ch)

/-- 42_channels R122: with a valid channel and the flag set, one transfer writes the value to the channel's calibration
register, whatever the reply; no other byte changes. That a successful transfer is delivered is log 9; the parameters, events
and traces in State are log 1, 4, 17. -/
def Obligations.CalibrationWritten : Prop :=
  ∀ (s : State) (ch value r0 r1 : Byte) (es : List PortEvent), ch.toNat < 12 → s.initialized = true →
    s.inputs = .xferDone (.ok r0 r1) :: es →
    ∃ t, exec (.setChannelCalibration ch value) s = .next t ∧ Answered s t 0x0000 ∧ SameFlags s t ∧
      t.inputs = es ∧ t.transfers = s.transfers ++ [⟨calAddr ch, value, some (.ok r0 r1)⟩] ∧
      Memory.read t.delivered (calAddr ch).toNat = some value ∧ SameBytesOutside s t [calAddr ch]

/-- 42_channels R122, 20_memory R49: a failed calibration write gives BUS_ERROR with data 0; the byte may or may not
have arrived (the delivered bytes, parameters, events and traces in State: log 1, 4, 9, 17). -/
def Obligations.CalibrationFails : Prop :=
  ∀ (s : State) (ch value : Byte) (es : List PortEvent), ch.toNat < 12 → s.initialized = true →
    s.inputs = .xferDone .err :: es →
    ∃ t, exec (.setChannelCalibration ch value) s = .next t ∧ Answered s t 0x0001 ∧ SameFlags s t ∧
      t.inputs = es ∧ t.transfers = s.transfers ++ [⟨calAddr ch, value, some .err⟩] ∧
      MaybeDelivered s t (calAddr ch) value ∧ SameBytesOutside s t [calAddr ch]

/-! ## INIT -/

/-- 10_state R30, R31, 41_init R101: the handshake table, pair by pair. -/
def Obligations.HandshakeTable : Prop :=
  initSeq.toList =
    [(0x6C, 0xA1), (0x6C, 0xA1), (0xB5, 0x9E), (0xB6, 0x00), (0xB5, 0x9E), (0xB7, 0x00), (0xB5, 0x9E), (0xB8, 0x00),
     (0xB5, 0x9E), (0xB9, 0x00), (0x79, 0xD6), (0x7A, 0x00), (0x79, 0xD6), (0x7B, 0x00), (0x6C, 0xA1), (0x6B, 0x3F)] ∧
  initSeq[15] = (statusResetAddr, statusResetVal) ∧ calBase = 0x48 ∧ grp0Addr = 0x56 ∧ grp1Addr = 0x57

/-- 41_init R91, R92, R97: sixteen transfers that succeed, with replies that pass (the reply to transfer 0 is any), send
the table verbatim, set the flag and answer OK; the vector is untouched (R99) and each INIT address holds its
value, a successful transfer being delivered (log 9). The parameters, events and traces in State are log 1, 4, 17. -/
def Obligations.InitCompletes : Prop :=
  ∀ (s : State) (r : Fin 16 → Byte × Byte) (es : List PortEvent), s.inputs = okAnswers 16 r ++ es →
    EchoesUpTo s.cfg.finalEchoCheck r 16 →
    ∃ t, exec .init s = .next t ∧ Answered s t 0x0000 ∧ t.initialized = true ∧ t.chEn = s.chEn ∧
      t.inputs = es ∧ t.transfers = s.transfers ++ handshakeRun 16 r ∧
      HandshakeBytes s t 16 16

/-- 41_init R95: a transport failure at transfer `n` aborts with BUS_ERROR and data `n`; exactly `n+1` transfers have
been issued; the flag is unchanged, whether it was 0 (R95) or 1 (R98). The bytes of the `n` successful transfers are
delivered (log 9), the failed one's may be (R49, log 10), no other changes. The parameters, events and traces in State
are log 1, 4, 17. -/
def Obligations.InitBusError : Prop :=
  ∀ (s : State) (r : Fin 16 → Byte × Byte) (n : Fin 16) (es : List PortEvent),
    s.inputs = okAnswers n.val r ++ .xferDone .err :: es → EchoesUpTo s.cfg.finalEchoCheck r n.val →
    ∃ t, exec .init s = .next t ∧ Answered s t (answerWord (BitVec.ofNat 8 n.val) 1) ∧ SameFlags s t ∧
      t.inputs = es ∧ t.transfers = s.transfers ++ handshakeRun n.val r ++ [handshakeTransfer n .err] ∧
      HandshakeBytes s t n.val (n.val + 1) ∧ MaybeDelivered s t initSeq[n].1 initSeq[n].2

/-- 41_init R96: the first reply that fails the echo check, at transfer `n`, aborts with COMM_ERROR and data `n`; exactly
`n+1` transfers have been issued; the flag is unchanged, whether it was 0 (R96) or 1 (R98). The bytes of those
transfers, and no others, are delivered (log 9). The parameters, events and traces in State are log 1, 4, 17. -/
def Obligations.InitCommError : Prop :=
  ∀ (s : State) (r : Fin 16 → Byte × Byte) (n : Fin 16) (es : List PortEvent),
    s.inputs = okAnswers (n.val + 1) r ++ es → EchoesUpTo s.cfg.finalEchoCheck r n.val →
    ¬ EchoesPrevious s.cfg.finalEchoCheck r n →
    ∃ t, exec .init s = .next t ∧ Answered s t (answerWord (BitVec.ofNat 8 n.val) 2) ∧ SameFlags s t ∧
      t.inputs = es ∧ t.transfers = s.transfers ++ handshakeRun (n.val + 1) r ∧
      HandshakeBytes s t (n.val + 1) (n.val + 1)

/-- 70_reset R175, 10_state R25: where the answers end before the handshake does, whatever event comes next, INIT waits in
BUSY with transfer `n` of the table outstanding; the bytes of the first `n` transfers, and no others, are delivered
(log 9). The events and traces in State are log 1, 17. -/
def Obligations.InitWaits : Prop :=
  ∀ (s : State) (r : Fin 16 → Byte × Byte) (n : Fin 16) (es : List PortEvent), s.inputs = okAnswers n.val r ++ es →
    NoAnswerNext es → EchoesUpTo s.cfg.finalEchoCheck r n.val →
    ∃ t, exec .init s = .next t ∧ t.phase = .busy ∧ t.step = n ∧ t.xferOut = some initSeq[n] ∧
      SameFlags s t ∧ t.inputs = es ∧ t.transfers = s.transfers ++ handshakeRun n.val r ∧ HandshakeBytes s t n.val n.val

/-- 41_init R97: INIT answers OK if and only if all 16 transfers succeed and the replies of transfers 1..14, and of 15
if `FINAL_ECHO_CHECK`, echo the previous pair; and the flag becomes 1 with that answer only. -/
def Obligations.InitSucceedsIff : Prop :=
  ∀ s t : State, exec .init s = .next t →
    ((t.phase = .resp ∧ t.rsp = 0x0000) ↔
      ∃ r es, s.inputs = okAnswers 16 r ++ es ∧ EchoesUpTo s.cfg.finalEchoCheck r 16) ∧
    (s.initialized = false → (t.initialized = true ↔ t.phase = .resp ∧ t.rsp = 0x0000))

/-- 41_init R98: a failed INIT leaves the flag as it was, 0 or 1, and changes no other state of the block. -/
def Obligations.FailedInitKeepsFlag : Prop :=
  ∀ s t : State, exec .init s = .next t → t.phase = .resp → t.rsp ≠ 0x0000 →
    SameFlags s t ∧ t.cfg = s.cfg ∧ t.responses = s.responses

/-- 41_init R99, R101, 20_memory R50: whatever the outcome, INIT has sent the first `n` pairs of the table, in order, and
every byte outside the addresses of those `n` is as before; it writes neither a channel or calibration register nor the
vector. The parameters, traces and delivered bytes in State are log 4, 9, 17. -/
def Obligations.InitFrame : Prop :=
  ∀ s t : State, exec .init s = .next t →
    t.chEn = s.chEn ∧ t.cfg = s.cfg ∧ t.responses = s.responses ∧
      ∃ n ≤ 16, ∃ l, t.transfers = s.transfers ++ l ∧ l.map (fun x => (x.addr, x.value)) = firstPairs n ∧
        SameBytesOutside s t ((firstPairs n).map Prod.fst)

/-! ## Every command -/

/-- 10_state R25, R26: where the transport's answer does not come next, whatever event does, each command that issues
transfers is in BUSY with its first transfer driven, and nothing has been sent (the traces and bytes in State: log 1, 9,
17). -/
def Obligations.FirstTransferDriven : Prop :=
  ∀ (s : State) (ch value : Byte), NoAnswerNext s.inputs →
    (∃ t, exec .init s = .next t ∧ t.phase = .busy ∧ t.step = 0 ∧ t.xferOut = some (0x6C, 0xA1) ∧ SameFlags s t ∧
      NoTransfer s t) ∧
    (s.initialized = true → ∃ t, exec .updateAllChannels s = .next t ∧ t.phase = .busy ∧ t.step = 0 ∧
      t.xferOut = some (0x56, pack0 s.chEn) ∧ SameFlags s t ∧ NoTransfer s t) ∧
    (s.initialized = true → ch.toNat < 12 → ∃ t, exec (.setChannelCalibration ch value) s = .next t ∧ t.phase = .busy ∧
      t.step = 0 ∧ t.xferOut = some (calAddr ch, value) ∧ SameFlags s t ∧ NoTransfer s t)

/-- 10_state R25, 42_channels R117: with transfer 0 done and no answer next, UPDATE_ALL_CHANNELS is in BUSY with transfer 1
outstanding, the mask of group 1 on the port and that of group 0 delivered (log 9; the events and traces in State: log 1,
17). -/
def Obligations.UpdateWaitsForSecondGroup : Prop :=
  ∀ (s : State) (r0 r1 : Byte) (es : List PortEvent), s.initialized = true →
    s.inputs = .xferDone (.ok r0 r1) :: es → NoAnswerNext es →
    ∃ t, exec .updateAllChannels s = .next t ∧ t.phase = .busy ∧ t.step = 1 ∧ t.xferOut = some (0x57, pack1 s.chEn) ∧
      SameFlags s t ∧ t.inputs = es ∧ t.transfers = s.transfers ++ [⟨0x56, pack0 s.chEn, some (.ok r0 r1)⟩] ∧
      Memory.read t.delivered 0x56 = some (pack0 s.chEn) ∧ SameBytesOutside s t [0x56]

/-- 10_state R27: the latch holds the fields of the accepted command's word while the command is in BUSY. That it still
holds them when the command has completed, which this claims too, is the model's: log 8. -/
def Obligations.LatchHoldsCommand : Prop :=
  ∀ (i : Instr) (s t : State), exec i s = .next t →
    t.op = cmdOp (encode i) ∧ t.ch = cmdCh (encode i) ∧ t.arg = cmdArg (encode i)

/-- 10_state R26, row BUSY: what an answer of the transport does to the command in progress. Every answer ends the
outstanding transfer and touches no other byte. A failure is BUS_ERROR with data `st.step` (60_exceptions R142). For INIT a
bad echo is COMM_ERROR with data `st.step` (41_init R93, R94, R96), a good one drives the next pair, and the last sets the
flag with OK (R97). UPDATE_ALL_CHANNELS drives its second mask after its first (42_channels R117), and it and
SET_CHANNEL_CALIBRATION (R122) end with OK whatever the reply. That a successful transfer is delivered is log 9; the
parameters, events and traces in State are log 1, 4, 17. -/
def Obligations.AnswerInBusy : Prop :=
  ∀ (s : State) (o : XferOutcome) (es : List PortEvent), Inv s → s.phase = .busy → s.inputs = .xferDone o :: es →
    ∃ t, step s = .next t ∧ t.inputs = es ∧ t.cfg = s.cfg ∧ t.responses = s.responses ∧ t.chEn = s.chEn ∧
      t.transfers = s.transfers ++ [⟨s.tx0, s.tx1, some o⟩] ∧ SameBytesOutside s t [s.tx0] ∧
      (t.phase = .busy → t.op = s.op ∧ t.ch = s.ch ∧ t.arg = s.arg) ∧
      (o = .err → MaybeDelivered s t s.tx0 s.tx1 ∧ t.phase = .resp ∧
        t.rsp = answerWord (BitVec.ofNat 8 s.step.val) 1 ∧ t.initialized = s.initialized) ∧
      ∀ r0 r1, o = .ok r0 r1 →
        Memory.read t.delivered s.tx0.toNat = some s.tx1 ∧
        (s.op = 0x1 → ¬ EchoesPrevious s.cfg.finalEchoCheck (fun _ => (r0, r1)) s.step →
          t.phase = .resp ∧ t.rsp = answerWord (BitVec.ofNat 8 s.step.val) 2 ∧ t.initialized = s.initialized) ∧
        (s.op = 0x1 → EchoesPrevious s.cfg.finalEchoCheck (fun _ => (r0, r1)) s.step → s.step = 15 →
          t.phase = .resp ∧ t.rsp = 0x0000 ∧ t.initialized = true) ∧
        (s.op = 0x1 → EchoesPrevious s.cfg.finalEchoCheck (fun _ => (r0, r1)) s.step →
          ∀ k : Fin 16, k.val = s.step.val + 1 →
            t.phase = .busy ∧ t.step = k ∧ t.xferOut = some initSeq[k] ∧ t.initialized = s.initialized) ∧
        (s.op = 0x5 → s.step = 0 →
          t.phase = .busy ∧ t.step = 1 ∧ t.xferOut = some (0x57, pack1 s.chEn) ∧ t.initialized = s.initialized) ∧
        (s.op = 0x5 → s.step = 1 → t.phase = .resp ∧ t.rsp = 0x0000 ∧ t.initialized = s.initialized) ∧
        (s.op = 0x6 → t.phase = .resp ∧ t.rsp = 0x0000 ∧ t.initialized = s.initialized)

/-- 20_memory R55: the number of transfers of a completed command, by its result code. -/
def Obligations.TransferCounts : Prop :=
  ∀ (i : Instr) (s t : State), exec i s = .next t → t.phase = .resp →
    ∃ n, t.transfers.length = s.transfers.length + n ∧
      match i with
      | .init => n = if t.rsp = 0x0000 then 16 else t.rsp.toNat / 256 + 1
      | .updateAllChannels =>
        n = if t.rsp = 0x0003 then 0 else if t.rsp = 0x0001 then 1 else 2
      | .setChannelCalibration _ _ => n = if t.rsp = 0x0003 ∨ t.rsp = 0x0004 then 0 else 1
      | _ => n = 0

/-- 60_exceptions R141, 30_encoding R66: the result codes each command can give. -/
def Obligations.ResultCatalogue : Prop :=
  ∀ (i : Instr) (s t : State), exec i s = .next t → t.phase = .resp →
    t.rsp.toNat % 256 ∈ match i with
      | .init => [0, 1, 2]
      | .isInitialized => [0]
      | .enableChannel _ => [0, 3, 4]
      | .disableChannel _ => [0, 3, 4]
      | .updateAllChannels => [0, 1, 3]
      | .setChannelCalibration _ _ => [0, 1, 3, 4]
      | .addrOf _ => [0, 6]
      | .decodeAddr _ => [0, 5]

/-- 60_exceptions R149: results are precise: a command that ends with an error leaves the flag and the vector exactly as
they were. -/
def Obligations.ErrorsArePrecise : Prop :=
  ∀ (i : Instr) (s t : State), exec i s = .next t → t.phase = .resp → t.rsp.toNat % 256 ≠ 0 → SameFlags s t

/-! ## The whole machine -/

/-- The invariant holds after reset (10_state R34; that the delivered bytes are a list, empty then, is log 9, and that
`SW_RESET_ADDR` is a free admitted address is log 4). -/
def Obligations.InvAtReset : Prop := Inv State.reset

/-- Every step keeps the invariant `Inv` of Safety.lean: SW_RESET_ADDR is admitted (00_scope R12); in BUSY the transfer port
carries the latched command's transfer `st.step` (10_state R24, R25, R28) and a command other than INIT has passed the flag
check (60_exceptions R148); a held response is legal (30_encoding R65, R66); transfers and delivered bytes stay in the
block's reach (20_memory R43) and group bytes have six bits (42_channels R116). The delivered bytes as a list in canonical
form are log 9, the trace log 17, an abandoned transfer in it log 11. -/
def Obligations.StepKeepsInv : Prop := ∀ s t : State, Inv s → step s = .next t → Inv t

/-- In a state that meets the invariant no step stops: decoding is total (30_encoding R73), and every failure is an
explicit result (60_exceptions R140). -/
def Obligations.NeverStops : Prop := ∀ s : State, Inv s → ∃ t, step s = .next t

/-- 10_state R20: the flag goes from 0 to 1 only when an INIT completes with OK, whether accepted in this step or in BUSY
with its last transfer answered, and from 1 to 0 only by `rst`. -/
def Obligations.FlagChangesOnlyByInitAndRst : Prop :=
  ∀ s t : State, step s = .next t →
    (s.initialized = false → t.initialized = true → t.phase = .resp ∧ t.rsp = 0x0000 ∧
      ((s.phase = .idle ∧ ∃ w es, s.inputs = .command w :: es ∧ decode s.cfg.swResetAddr w = .ok .init) ∨
        (s.phase = .busy ∧ s.op = 0x1 ∧ s.step = 15 ∧ ∃ r0 r1 es, s.inputs = .xferDone (.ok r0 r1) :: es))) ∧
    (s.initialized = true → t.initialized = false → ∃ es, s.inputs = .rst :: es)

/-- 10_state R22: the vector is "Mutated only by enable/disable calls" (and `rst`), in a block that is initialized, and
then in one bit only. -/
def Obligations.VectorChangesOnlyByChannelCommands : Prop :=
  ∀ s t : State, step s = .next t → t.chEn ≠ s.chEn →
    (∃ es, s.inputs = .rst :: es) ∨
      ∃ w es ch, s.phase = .idle ∧ s.inputs = .command w :: es ∧ s.initialized = true ∧ ch.toNat < 12 ∧
        (decode s.cfg.swResetAddr w = .ok (.enableChannel ch) ∨ decode s.cfg.swResetAddr w = .ok (.disableChannel ch)) ∧
        ∀ k, k ≠ ch.toNat → t.chEn.getLsbD k = s.chEn.getLsbD k

/-- 20_memory R50, R51: the traces of transfers and responses only grow at the end, and the parameters never change. -/
def Obligations.TracesOnlyGrow : Prop :=
  ∀ s t : State, step s = .next t → s.transfers <+: t.transfers ∧ s.responses <+: t.responses ∧ t.cfg = s.cfg

/-- 20_memory R40, R43, 00_scope R12: every transfer sent has its address in the closed register set, and the
software-reset register is written only where its address is a reserved one. -/
def Obligations.AddressesInClosedSet : Prop :=
  ∀ s t : State, Inv s → step s = .next t → ∀ x ∈ t.transfers,
    (idOfAddr s.cfg.swResetAddr x.addr).isSome = true ∧
      (x.addr = s.cfg.swResetAddr → x.addr ∈ [0x6C#8, 0x79#8, 0x7A#8, 0x7B#8, 0xB5#8, 0xB6#8, 0xB7#8, 0xB8#8, 0xB9#8])

/-- 10_state R25: in the event-level machine the step counter is 0 at a command's first transfer, goes up by exactly 1
when a transfer completes and another follows, and never leaves the command's range. -/
def Obligations.StepCounterCounts : Prop :=
  ∀ s t : State, Inv s → portStep s = .next t → t.phase = .busy →
    (s.phase ≠ .busy → t.step = 0) ∧
    (∀ o es, s.phase = .busy → s.inputs = .xferDone o :: es → t.step.val = s.step.val + 1) ∧
    (t.op = 0x5 → t.step.val ≤ 1) ∧ (t.op = 0x6 → t.step.val = 0)

/-- 00_scope R15: the event-level port protocol agrees with the atomic transition: each step of the machine is a run of
one or more steps of the event-level machine from the same state. -/
def Obligations.AtomicAgreesWithPorts : Prop :=
  ∀ s : State, ∃ n, portRun (n + 1) s = step s

/-- 60_exceptions R150, 10_state R25, R27 to R29: what the spec calls not observable never shows. Two states that differ only
in that show the same observation (00_scope R16), one step of each keeps them so or stops both alike, and hence any number
of steps ends with the same observation. (The latch outside BUSY and the response register outside RESP keep their
contents by log 8, and the counter of free values is log 7 and 17; none of it shows.) -/
def Obligations.UnspecifiedNeverObserved : Prop :=
  ∀ a b : State, SameView a b →
    a.observe = b.observe ∧ AlikeOutcomes (step a) (step b) ∧
      ∀ n, observeOutcome (Host.Core.run core n a) = observeOutcome (Host.Core.run core n b)
end

