-- ==== Sys2Proof/Laws/Decode.lean ====
section
/-! SUPPORT. The fields of an encoded command (30_encoding R60), and the constraint on `SW_RESET_ADDR` (00_scope R12). -/

namespace Sys2Proof

@[simp] theorem cmdOp_packCommand (op : BitVec 4) (ch arg : Byte) : cmdOp (packCommand op ch arg) = op := by
  ext i hi
  have h1 : i < 8 := by omega
  have h2 : i < 16 := by omega
  have h3 : i < 32 := by omega
  simp [cmdOp, packCommand, hi, h1, h2, h3]

@[simp] theorem cmdZ0_packCommand (op : BitVec 4) (ch arg : Byte) : cmdZ0 (packCommand op ch arg) = 0#4 := by
  ext i hi
  have h1 : 4 + i < 8 := by omega
  have h2 : 4 + i < 16 := by omega
  simp [cmdZ0, packCommand, h1, h2]

@[simp] theorem cmdCh_packCommand (op : BitVec 4) (ch arg : Byte) : cmdCh (packCommand op ch arg) = ch := by
  ext i hi
  have h1 : 8 + i < 16 := by omega
  have h2 : 8 + i < 32 := by omega
  have h3 := BitVec.getLsbD_of_ge op (8 + i) (by omega)
  simp [cmdCh, packCommand, h1, h2, hi, h3]

@[simp] theorem cmdArg_packCommand (op : BitVec 4) (ch arg : Byte) : cmdArg (packCommand op ch arg) = arg := by
  ext i hi
  have h1 : 16 + i < 32 := by omega
  have h2 : ¬ 16 + i < 16 := by omega
  have h3 : 8 ≤ 16 + i - 8 := by omega
  have h4 := BitVec.getLsbD_of_ge op (16 + i) (by omega)
  simp [cmdArg, packCommand, h1, h2, hi, h3, h4]

@[simp] theorem cmdZ1_packCommand (op : BitVec 4) (ch arg : Byte) : cmdZ1 (packCommand op ch arg) = 0#8 := by
  ext i hi
  have h1 : 24 + i < 32 := by omega
  have h2 : ¬ 24 + i < 16 := by omega
  have h3 : 8 ≤ 24 + i - 8 := by omega
  have h4 : 8 ≤ 24 + i - 16 := by omega
  have h5 := BitVec.getLsbD_of_ge op (24 + i) (by omega)
  simp [cmdZ1, packCommand, h1, h2, h3, h4, h5]

/-- A word whose must-be-zero fields are zero is packed from the other three. -/
theorem packCommand_fields {w : Command} (h0 : cmdZ0 w = 0#4) (h1 : cmdZ1 w = 0#8) :
    packCommand (cmdOp w) (cmdCh w) (cmdArg w) = w := by
  have g0 (k : Nat) (hk : 4 ≤ k ∧ k < 8) : w[k] = false := by
    have h := congrArg (fun v => v.getLsbD (k - 4)) h0
    simpa [cmdZ0, show k - 4 < 4 by omega, show 4 + (k - 4) = k by omega, show k < 32 by omega] using h
  have g1 (k : Nat) (hk : 24 ≤ k ∧ k < 32) : w[k] = false := by
    have h := congrArg (fun v => v.getLsbD (k - 24)) h1
    simpa [cmdZ1, show k - 24 < 8 by omega, show 24 + (k - 24) = k by omega, hk.2] using h
  refine BitVec.eq_of_getLsbD_eq fun i hi => ?_
  interval_cases i <;> simp [packCommand, cmdOp, cmdCh, cmdArg, g0, g1]

/-- The software-reset address of the machine after reset is one that R12 admits. -/
theorem Config.swResetAddr_admitted : Config.swAdmitted Config.swResetAddr = true := by
  have h : Config.swResetAddr ∈ Config.admittedAddrs := List.get_mem _ _
  exact (List.mem_filter.1 h).2

end Sys2Proof
end

