-- ==== Sys2Proof/Laws/Memory.lean ====
section
/-! SUPPORT. The laws of the delivered bytes: read after write, writes leave other addresses alone, and every operation
keeps the canonical form, so that equal memories are equal lists. -/

namespace Sys2Proof.Machine

@[simp] theorem Memory.read_write_same (m : Memory) (a : Nat) (v : Byte) :
    Memory.read (Memory.write m a v) a = some v := by
  induction m with
  | nil => simp [Memory.write, Memory.read]
  | cons c m ih =>
    simp only [Memory.write]
    split
    · simp [Memory.read]
    · split
      · simp [Memory.read]
      · next h => simp [Memory.read, ih, Ne.symm h]

theorem Memory.read_write_other (m : Memory) {a b : Nat} (v : Byte) (h : b ≠ a) :
    Memory.read (Memory.write m a v) b = Memory.read m b := by
  induction m with
  | nil => simp [Memory.write, Memory.read, h.symm]
  | cons c m ih =>
    simp only [Memory.write]
    split
    · simp [Memory.read, h.symm]
    · split
      · next hc => subst hc; simp [Memory.read, h.symm]
      · simp [Memory.read, ih]

/-- What is listed after a write: the new pair, or what was listed before. -/
theorem Memory.mem_write {m : Memory} {a : Nat} {v : Byte} {c : Host.Cell} (h : c ∈ Memory.write m a v) :
    c = (a, v) ∨ c ∈ m := by
  induction m with
  | nil => simpa [Memory.write] using h
  | cons d m ih =>
    simp only [Memory.write] at h
    split at h
    · simpa using h
    · split at h
      · rcases List.mem_cons.1 h with h | h
        · exact .inl h
        · exact .inr (List.mem_cons_of_mem _ h)
      · rcases List.mem_cons.1 h with h | h
        · exact .inr (h ▸ List.mem_cons_self)
        · exact (ih h).imp_right (List.mem_cons_of_mem _)

theorem Memory.wf_nil : Memory.wf [] := by simp [Memory.wf]

theorem Memory.wf_write {m : Memory} (hm : Memory.wf m) {a : Nat} (ha : a < 256) (v : Byte) :
    Memory.wf (Memory.write m a v) := by
  obtain ⟨hp, hb⟩ := hm
  refine ⟨?_, fun c hc => ?_⟩
  · induction m with
    | nil => simp [Memory.write]
    | cons d m ih =>
      rw [List.pairwise_cons] at hp
      have hb' : ∀ c ∈ m, c.1 < 256 := fun c hc => hb c (List.mem_cons_of_mem _ hc)
      simp only [Memory.write]
      split
      · next h =>
        refine List.pairwise_cons.2 ⟨fun c hc => ?_, List.pairwise_cons.2 hp⟩
        rcases List.mem_cons.1 hc with rfl | hc
        · exact h
        · exact h.trans (hp.1 c hc)
      · split
        · next h => exact List.pairwise_cons.2 ⟨fun c hc => h ▸ hp.1 c hc, hp.2⟩
        · next h1 h2 =>
          refine List.pairwise_cons.2 ⟨fun c hc => ?_, ih hp.2 hb'⟩
          rcases Memory.mem_write hc with rfl | hc
          · exact lt_of_le_of_ne (not_lt.1 h1) (Ne.symm h2)
          · exact hp.1 c hc
  · rcases Memory.mem_write hc with rfl | hc
    · exact ha
    · exact hb c hc

/-- Every delivery keeps the canonical form. -/
theorem State.delivery_wf {s : State} (h : Memory.wf s.delivered) (o : Option XferOutcome) :
    Memory.wf (s.delivery o) := by
  have hw := Memory.wf_write h s.tx0.isLt s.tx1
  unfold State.delivery
  split
  · exact hw
  · split <;> assumption
  · split <;> assumption

/-- A delivery touches no address but the outstanding transfer's. -/
theorem State.delivery_read_other (s : State) (o : Option XferOutcome) {a : Nat} (h : a ≠ s.tx0.toNat) :
    Memory.read (s.delivery o) a = Memory.read s.delivered a := by
  unfold State.delivery
  split
  · exact Memory.read_write_other _ _ h
  · split
    · exact Memory.read_write_other _ _ h
    · rfl
  · split
    · exact Memory.read_write_other _ _ h
    · rfl

/-- At the outstanding transfer's address a delivery leaves the byte sent, or what was there. -/
theorem State.delivery_read_sent (s : State) (o : Option XferOutcome) :
    Memory.read (s.delivery o) s.tx0.toNat = some s.tx1 ∨
      Memory.read (s.delivery o) s.tx0.toNat = Memory.read s.delivered s.tx0.toNat := by
  unfold State.delivery
  split
  · simp
  · split <;> simp
  · split <;> simp

/-- What is listed after a delivery: the byte sent, or what was listed before. -/
theorem State.mem_delivery {s : State} {o : Option XferOutcome} {c : Host.Cell} (h : c ∈ s.delivery o) :
    c = (s.tx0.toNat, s.tx1) ∨ c ∈ s.delivered := by
  unfold State.delivery at h
  split at h
  · exact Memory.mem_write h
  · split at h
    · exact Memory.mem_write h
    · exact .inr h
  · split at h
    · exact Memory.mem_write h
    · exact .inr h

end Sys2Proof.Machine
end

