-- ==== Sys2Proof/Laws/State.lean ====
section
/-! SUPPORT. What each update of the state does to each field: one lemma per field per update, all by rfl, so that no
proof unfolds a record update. -/

namespace Sys2Proof.Machine

variable (s : State)

/-! ## latch -/

@[simp] theorem State.latch_cfg (op : BitVec 4) (ch arg : Byte) : (s.latch op ch arg).cfg = s.cfg := rfl
@[simp] theorem State.latch_initialized (op : BitVec 4) (ch arg : Byte) :
    (s.latch op ch arg).initialized = s.initialized := rfl
@[simp] theorem State.latch_chEn (op : BitVec 4) (ch arg : Byte) : (s.latch op ch arg).chEn = s.chEn := rfl
@[simp] theorem State.latch_phase (op : BitVec 4) (ch arg : Byte) : (s.latch op ch arg).phase = s.phase := rfl
@[simp] theorem State.latch_step (op : BitVec 4) (ch arg : Byte) : (s.latch op ch arg).step = s.step := rfl
@[simp] theorem State.latch_op (op : BitVec 4) (ch arg : Byte) : (s.latch op ch arg).op = op := rfl
@[simp] theorem State.latch_ch (op : BitVec 4) (ch arg : Byte) : (s.latch op ch arg).ch = ch := rfl
@[simp] theorem State.latch_arg (op : BitVec 4) (ch arg : Byte) : (s.latch op ch arg).arg = arg := rfl
@[simp] theorem State.latch_tx0 (op : BitVec 4) (ch arg : Byte) : (s.latch op ch arg).tx0 = s.tx0 := rfl
@[simp] theorem State.latch_tx1 (op : BitVec 4) (ch arg : Byte) : (s.latch op ch arg).tx1 = s.tx1 := rfl
@[simp] theorem State.latch_rsp (op : BitVec 4) (ch arg : Byte) : (s.latch op ch arg).rsp = s.rsp := rfl
@[simp] theorem State.latch_inputs (op : BitVec 4) (ch arg : Byte) : (s.latch op ch arg).inputs = s.inputs := rfl
@[simp] theorem State.latch_responses (op : BitVec 4) (ch arg : Byte) : (s.latch op ch arg).responses = s.responses :=
  rfl
@[simp] theorem State.latch_transfers (op : BitVec 4) (ch arg : Byte) : (s.latch op ch arg).transfers = s.transfers :=
  rfl
@[simp] theorem State.latch_delivered (op : BitVec 4) (ch arg : Byte) : (s.latch op ch arg).delivered = s.delivered :=
  rfl
@[simp] theorem State.latch_draws (op : BitVec 4) (ch arg : Byte) : (s.latch op ch arg).draws = s.draws := rfl

/-! ## request -/

@[simp] theorem State.request_cfg (t : Fin 16) (a v : Byte) : (s.request t a v).cfg = s.cfg := rfl
@[simp] theorem State.request_initialized (t : Fin 16) (a v : Byte) : (s.request t a v).initialized = s.initialized :=
  rfl
@[simp] theorem State.request_chEn (t : Fin 16) (a v : Byte) : (s.request t a v).chEn = s.chEn := rfl
@[simp] theorem State.request_phase (t : Fin 16) (a v : Byte) : (s.request t a v).phase = .busy := rfl
@[simp] theorem State.request_step (t : Fin 16) (a v : Byte) : (s.request t a v).step = t := rfl
@[simp] theorem State.request_op (t : Fin 16) (a v : Byte) : (s.request t a v).op = s.op := rfl
@[simp] theorem State.request_ch (t : Fin 16) (a v : Byte) : (s.request t a v).ch = s.ch := rfl
@[simp] theorem State.request_arg (t : Fin 16) (a v : Byte) : (s.request t a v).arg = s.arg := rfl
@[simp] theorem State.request_tx0 (t : Fin 16) (a v : Byte) : (s.request t a v).tx0 = a := rfl
@[simp] theorem State.request_tx1 (t : Fin 16) (a v : Byte) : (s.request t a v).tx1 = v := rfl
@[simp] theorem State.request_rsp (t : Fin 16) (a v : Byte) : (s.request t a v).rsp = s.rsp := rfl
@[simp] theorem State.request_inputs (t : Fin 16) (a v : Byte) : (s.request t a v).inputs = s.inputs := rfl
@[simp] theorem State.request_responses (t : Fin 16) (a v : Byte) : (s.request t a v).responses = s.responses := rfl
@[simp] theorem State.request_transfers (t : Fin 16) (a v : Byte) : (s.request t a v).transfers = s.transfers := rfl
@[simp] theorem State.request_delivered (t : Fin 16) (a v : Byte) : (s.request t a v).delivered = s.delivered := rfl
@[simp] theorem State.request_draws (t : Fin 16) (a v : Byte) : (s.request t a v).draws = s.draws := rfl

/-! ## settle -/

@[simp] theorem State.settle_cfg (o : XferOutcome) : (s.settle o).cfg = s.cfg := rfl
@[simp] theorem State.settle_initialized (o : XferOutcome) : (s.settle o).initialized = s.initialized := rfl
@[simp] theorem State.settle_chEn (o : XferOutcome) : (s.settle o).chEn = s.chEn := rfl
@[simp] theorem State.settle_phase (o : XferOutcome) : (s.settle o).phase = s.phase := rfl
@[simp] theorem State.settle_step (o : XferOutcome) : (s.settle o).step = s.step := rfl
@[simp] theorem State.settle_op (o : XferOutcome) : (s.settle o).op = s.op := rfl
@[simp] theorem State.settle_ch (o : XferOutcome) : (s.settle o).ch = s.ch := rfl
@[simp] theorem State.settle_arg (o : XferOutcome) : (s.settle o).arg = s.arg := rfl
@[simp] theorem State.settle_tx0 (o : XferOutcome) : (s.settle o).tx0 = s.tx0 := rfl
@[simp] theorem State.settle_tx1 (o : XferOutcome) : (s.settle o).tx1 = s.tx1 := rfl
@[simp] theorem State.settle_rsp (o : XferOutcome) : (s.settle o).rsp = s.rsp := rfl
@[simp] theorem State.settle_inputs (o : XferOutcome) : (s.settle o).inputs = s.inputs := rfl
@[simp] theorem State.settle_responses (o : XferOutcome) : (s.settle o).responses = s.responses := rfl
@[simp] theorem State.settle_transfers (o : XferOutcome) :
    (s.settle o).transfers = s.transfers ++ [⟨s.tx0, s.tx1, some o⟩] := rfl
@[simp] theorem State.settle_delivered (o : XferOutcome) : (s.settle o).delivered = s.delivery (some o) := rfl
@[simp] theorem State.settle_draws (o : XferOutcome) : (s.settle o).draws = s.draws + 1 := rfl

/-! ## withInputs -/

@[simp] theorem State.withInputs_cfg (es : List PortEvent) : (s.withInputs es).cfg = s.cfg := rfl
@[simp] theorem State.withInputs_initialized (es : List PortEvent) : (s.withInputs es).initialized = s.initialized :=
  rfl
@[simp] theorem State.withInputs_chEn (es : List PortEvent) : (s.withInputs es).chEn = s.chEn := rfl
@[simp] theorem State.withInputs_phase (es : List PortEvent) : (s.withInputs es).phase = s.phase := rfl
@[simp] theorem State.withInputs_step (es : List PortEvent) : (s.withInputs es).step = s.step := rfl
@[simp] theorem State.withInputs_op (es : List PortEvent) : (s.withInputs es).op = s.op := rfl
@[simp] theorem State.withInputs_ch (es : List PortEvent) : (s.withInputs es).ch = s.ch := rfl
@[simp] theorem State.withInputs_arg (es : List PortEvent) : (s.withInputs es).arg = s.arg := rfl
@[simp] theorem State.withInputs_tx0 (es : List PortEvent) : (s.withInputs es).tx0 = s.tx0 := rfl
@[simp] theorem State.withInputs_tx1 (es : List PortEvent) : (s.withInputs es).tx1 = s.tx1 := rfl
@[simp] theorem State.withInputs_rsp (es : List PortEvent) : (s.withInputs es).rsp = s.rsp := rfl
@[simp] theorem State.withInputs_inputs (es : List PortEvent) : (s.withInputs es).inputs = es := rfl
@[simp] theorem State.withInputs_responses (es : List PortEvent) : (s.withInputs es).responses = s.responses := rfl
@[simp] theorem State.withInputs_transfers (es : List PortEvent) : (s.withInputs es).transfers = s.transfers := rfl
@[simp] theorem State.withInputs_delivered (es : List PortEvent) : (s.withInputs es).delivered = s.delivered := rfl
@[simp] theorem State.withInputs_draws (es : List PortEvent) : (s.withInputs es).draws = s.draws := rfl

/-! ## respond -/

@[simp] theorem State.respond_cfg (c : ResultCode) (d : Byte) : (s.respond c d).cfg = s.cfg := rfl
@[simp] theorem State.respond_initialized (c : ResultCode) (d : Byte) : (s.respond c d).initialized = s.initialized :=
  rfl
@[simp] theorem State.respond_chEn (c : ResultCode) (d : Byte) : (s.respond c d).chEn = s.chEn := rfl
@[simp] theorem State.respond_phase (c : ResultCode) (d : Byte) : (s.respond c d).phase = .resp := rfl
@[simp] theorem State.respond_step (c : ResultCode) (d : Byte) : (s.respond c d).step = Config.idleStep s.draws := rfl
@[simp] theorem State.respond_op (c : ResultCode) (d : Byte) : (s.respond c d).op = s.op := rfl
@[simp] theorem State.respond_ch (c : ResultCode) (d : Byte) : (s.respond c d).ch = s.ch := rfl
@[simp] theorem State.respond_arg (c : ResultCode) (d : Byte) : (s.respond c d).arg = s.arg := rfl
@[simp] theorem State.respond_tx0 (c : ResultCode) (d : Byte) : (s.respond c d).tx0 = Config.idleTx0 s.draws := rfl
@[simp] theorem State.respond_tx1 (c : ResultCode) (d : Byte) : (s.respond c d).tx1 = Config.idleTx1 s.draws := rfl
@[simp] theorem State.respond_rsp (c : ResultCode) (d : Byte) : (s.respond c d).rsp = rspWord c d := rfl
@[simp] theorem State.respond_inputs (c : ResultCode) (d : Byte) : (s.respond c d).inputs = s.inputs := rfl
@[simp] theorem State.respond_responses (c : ResultCode) (d : Byte) : (s.respond c d).responses = s.responses := rfl
@[simp] theorem State.respond_transfers (c : ResultCode) (d : Byte) : (s.respond c d).transfers = s.transfers := rfl
@[simp] theorem State.respond_delivered (c : ResultCode) (d : Byte) : (s.respond c d).delivered = s.delivered := rfl
@[simp] theorem State.respond_draws (c : ResultCode) (d : Byte) : (s.respond c d).draws = s.draws + 1 := rfl

/-! ## putChannel -/

@[simp] theorem State.putChannel_cfg (ch : Byte) (on : Bool) : (s.putChannel ch on).cfg = s.cfg := rfl
@[simp] theorem State.putChannel_initialized (ch : Byte) (on : Bool) :
    (s.putChannel ch on).initialized = s.initialized := rfl
@[simp] theorem State.putChannel_chEn (ch : Byte) (on : Bool) : (s.putChannel ch on).chEn = setChannel s.chEn ch on :=
  rfl
@[simp] theorem State.putChannel_phase (ch : Byte) (on : Bool) : (s.putChannel ch on).phase = s.phase := rfl
@[simp] theorem State.putChannel_step (ch : Byte) (on : Bool) : (s.putChannel ch on).step = s.step := rfl
@[simp] theorem State.putChannel_op (ch : Byte) (on : Bool) : (s.putChannel ch on).op = s.op := rfl
@[simp] theorem State.putChannel_ch (ch : Byte) (on : Bool) : (s.putChannel ch on).ch = s.ch := rfl
@[simp] theorem State.putChannel_arg (ch : Byte) (on : Bool) : (s.putChannel ch on).arg = s.arg := rfl
@[simp] theorem State.putChannel_tx0 (ch : Byte) (on : Bool) : (s.putChannel ch on).tx0 = s.tx0 := rfl
@[simp] theorem State.putChannel_tx1 (ch : Byte) (on : Bool) : (s.putChannel ch on).tx1 = s.tx1 := rfl
@[simp] theorem State.putChannel_rsp (ch : Byte) (on : Bool) : (s.putChannel ch on).rsp = s.rsp := rfl
@[simp] theorem State.putChannel_inputs (ch : Byte) (on : Bool) : (s.putChannel ch on).inputs = s.inputs := rfl
@[simp] theorem State.putChannel_responses (ch : Byte) (on : Bool) : (s.putChannel ch on).responses = s.responses :=
  rfl
@[simp] theorem State.putChannel_transfers (ch : Byte) (on : Bool) : (s.putChannel ch on).transfers = s.transfers :=
  rfl
@[simp] theorem State.putChannel_delivered (ch : Byte) (on : Bool) : (s.putChannel ch on).delivered = s.delivered :=
  rfl
@[simp] theorem State.putChannel_draws (ch : Byte) (on : Bool) : (s.putChannel ch on).draws = s.draws := rfl

/-! ## markInitialized -/

@[simp] theorem State.markInitialized_cfg : s.markInitialized.cfg = s.cfg := rfl
@[simp] theorem State.markInitialized_initialized : s.markInitialized.initialized = true := rfl
@[simp] theorem State.markInitialized_chEn : s.markInitialized.chEn = s.chEn := rfl
@[simp] theorem State.markInitialized_phase : s.markInitialized.phase = s.phase := rfl
@[simp] theorem State.markInitialized_step : s.markInitialized.step = s.step := rfl
@[simp] theorem State.markInitialized_op : s.markInitialized.op = s.op := rfl
@[simp] theorem State.markInitialized_ch : s.markInitialized.ch = s.ch := rfl
@[simp] theorem State.markInitialized_arg : s.markInitialized.arg = s.arg := rfl
@[simp] theorem State.markInitialized_tx0 : s.markInitialized.tx0 = s.tx0 := rfl
@[simp] theorem State.markInitialized_tx1 : s.markInitialized.tx1 = s.tx1 := rfl
@[simp] theorem State.markInitialized_rsp : s.markInitialized.rsp = s.rsp := rfl
@[simp] theorem State.markInitialized_inputs : s.markInitialized.inputs = s.inputs := rfl
@[simp] theorem State.markInitialized_responses : s.markInitialized.responses = s.responses := rfl
@[simp] theorem State.markInitialized_transfers : s.markInitialized.transfers = s.transfers := rfl
@[simp] theorem State.markInitialized_delivered : s.markInitialized.delivered = s.delivered := rfl
@[simp] theorem State.markInitialized_draws : s.markInitialized.draws = s.draws := rfl

/-! ## takeResponse -/

@[simp] theorem State.takeResponse_cfg : s.takeResponse.cfg = s.cfg := rfl
@[simp] theorem State.takeResponse_initialized : s.takeResponse.initialized = s.initialized := rfl
@[simp] theorem State.takeResponse_chEn : s.takeResponse.chEn = s.chEn := rfl
@[simp] theorem State.takeResponse_phase : s.takeResponse.phase = .idle := rfl
@[simp] theorem State.takeResponse_step : s.takeResponse.step = s.step := rfl
@[simp] theorem State.takeResponse_op : s.takeResponse.op = s.op := rfl
@[simp] theorem State.takeResponse_ch : s.takeResponse.ch = s.ch := rfl
@[simp] theorem State.takeResponse_arg : s.takeResponse.arg = s.arg := rfl
@[simp] theorem State.takeResponse_tx0 : s.takeResponse.tx0 = s.tx0 := rfl
@[simp] theorem State.takeResponse_tx1 : s.takeResponse.tx1 = s.tx1 := rfl
@[simp] theorem State.takeResponse_rsp : s.takeResponse.rsp = s.rsp := rfl
@[simp] theorem State.takeResponse_inputs : s.takeResponse.inputs = s.inputs := rfl
@[simp] theorem State.takeResponse_responses : s.takeResponse.responses = s.responses ++ [s.rsp] := rfl
@[simp] theorem State.takeResponse_transfers : s.takeResponse.transfers = s.transfers := rfl
@[simp] theorem State.takeResponse_delivered : s.takeResponse.delivered = s.delivered := rfl
@[simp] theorem State.takeResponse_draws : s.takeResponse.draws = s.draws := rfl

/-! ## rst -/

@[simp] theorem State.rst_cfg : s.rst.cfg = s.cfg := rfl
@[simp] theorem State.rst_initialized : s.rst.initialized = false := rfl
@[simp] theorem State.rst_chEn : s.rst.chEn = 0x000#12 := rfl
@[simp] theorem State.rst_phase : s.rst.phase = .idle := rfl
@[simp] theorem State.rst_step : s.rst.step = 0 := rfl
@[simp] theorem State.rst_op : s.rst.op = 0 := rfl
@[simp] theorem State.rst_ch : s.rst.ch = 0 := rfl
@[simp] theorem State.rst_arg : s.rst.arg = 0 := rfl
@[simp] theorem State.rst_tx0 : s.rst.tx0 = 0 := rfl
@[simp] theorem State.rst_tx1 : s.rst.tx1 = 0 := rfl
@[simp] theorem State.rst_rsp : s.rst.rsp = 0 := rfl
@[simp] theorem State.rst_inputs : s.rst.inputs = s.inputs := rfl
@[simp] theorem State.rst_responses : s.rst.responses = s.responses := rfl
@[simp] theorem State.rst_transfers :
    s.rst.transfers = if s.phase = .busy then s.transfers ++ [⟨s.tx0, s.tx1, none⟩] else s.transfers := rfl
@[simp] theorem State.rst_delivered : s.rst.delivered = if s.phase = .busy then s.delivery none else s.delivered :=
  rfl
@[simp] theorem State.rst_draws : s.rst.draws = s.draws + 1 := rfl

/-! ## Completing a command -/

@[simp] theorem complete_eq (d : Byte) : complete d s = s.respond .ok d := rfl
@[simp] theorem raise_eq (e : ResultCode) (d : Byte) : raise e d s = s.respond e d := rfl
@[simp] theorem initSucceeded_eq : initSucceeded s = s.markInitialized.respond .ok 0x00 := rfl

/-! ## What a delivery depends on -/

@[simp] theorem State.delivery_withInputs (es : List PortEvent) (o : Option XferOutcome) :
    (s.withInputs es).delivery o = s.delivery o := rfl
@[simp] theorem State.delivery_request (t : Fin 16) (a v : Byte) (r0 r1 : Byte) :
    (s.request t a v).delivery (some (.ok r0 r1)) = Memory.write s.delivered a.toNat v := rfl

end Sys2Proof.Machine
end

