-- ==== Sys2Proof/Laws/Ops.lean ====
section
/-! SUPPORT. For each shared operation one lemma that says everything it can do, cited instead of unfolding it. -/

namespace Sys2Proof.Machine

/-! ## BusWrite (R44) -/

/-- The state after transfer `t`, `(a, v)`, has been requested and answered with `o`. -/
def afterTransfer (t : Fin 16) (a v : Byte) (o : XferOutcome) (es : List PortEvent) (s : State) : State :=
  ((s.request t a v).withInputs es).settle o

section Fields
variable (t : Fin 16) (a v : Byte) (o : XferOutcome) (es : List PortEvent) (s : State)

@[simp] theorem afterTransfer_cfg : (afterTransfer t a v o es s).cfg = s.cfg := rfl
@[simp] theorem afterTransfer_initialized : (afterTransfer t a v o es s).initialized = s.initialized := rfl
@[simp] theorem afterTransfer_chEn : (afterTransfer t a v o es s).chEn = s.chEn := rfl
@[simp] theorem afterTransfer_phase : (afterTransfer t a v o es s).phase = .busy := rfl
@[simp] theorem afterTransfer_step : (afterTransfer t a v o es s).step = t := rfl
@[simp] theorem afterTransfer_op : (afterTransfer t a v o es s).op = s.op := rfl
@[simp] theorem afterTransfer_ch : (afterTransfer t a v o es s).ch = s.ch := rfl
@[simp] theorem afterTransfer_arg : (afterTransfer t a v o es s).arg = s.arg := rfl
@[simp] theorem afterTransfer_tx0 : (afterTransfer t a v o es s).tx0 = a := rfl
@[simp] theorem afterTransfer_tx1 : (afterTransfer t a v o es s).tx1 = v := rfl
@[simp] theorem afterTransfer_rsp : (afterTransfer t a v o es s).rsp = s.rsp := rfl
@[simp] theorem afterTransfer_inputs : (afterTransfer t a v o es s).inputs = es := rfl
@[simp] theorem afterTransfer_responses : (afterTransfer t a v o es s).responses = s.responses := rfl
@[simp] theorem afterTransfer_transfers : (afterTransfer t a v o es s).transfers = s.transfers ++ [⟨a, v, some o⟩] := rfl
@[simp] theorem afterTransfer_draws : (afterTransfer t a v o es s).draws = s.draws + 1 := rfl

end Fields

/-- A transfer touches no byte but its own address's. -/
theorem afterTransfer_read_other {t : Fin 16} {a v : Byte} {o : XferOutcome} {es : List PortEvent} {s : State} {b : Nat}
    (h : b ≠ a.toNat) : Memory.read (afterTransfer t a v o es s).delivered b = Memory.read s.delivered b :=
  State.delivery_read_other ((s.request t a v).withInputs es) (some o) h

/-- A successful transfer delivers its byte. -/
theorem afterTransfer_read_ok {t : Fin 16} {a v r0 r1 : Byte} {es : List PortEvent} {s : State} :
    Memory.read (afterTransfer t a v (.ok r0 r1) es s).delivered a.toNat = some v :=
  Memory.read_write_same _ _ _

/-- A failed transfer delivers its byte or leaves the one there was. -/
theorem afterTransfer_maybe {t : Fin 16} {a v : Byte} {o : XferOutcome} {es : List PortEvent} {s : State} :
    Memory.read (afterTransfer t a v o es s).delivered a.toNat = some v ∨
      Memory.read (afterTransfer t a v o es s).delivered a.toNat = Memory.read s.delivered a.toNat :=
  State.delivery_read_sent ((s.request t a v).withInputs es) (some o)

theorem busWrite_ok {t : Fin 16} {a v : Byte} {k : Byte → Byte → State → State} {s : State} {r0 r1 : Byte}
    {es : List PortEvent} (h : s.inputs = .xferDone (.ok r0 r1) :: es) :
    busWrite t a v k s = k r0 r1 (afterTransfer t a v (.ok r0 r1) es s) := by
  simp [busWrite, h, afterTransfer]

theorem busWrite_err {t : Fin 16} {a v : Byte} {k : Byte → Byte → State → State} {s : State}
    {es : List PortEvent} (h : s.inputs = .xferDone .err :: es) :
    busWrite t a v k s = (afterTransfer t a v .err es s).respond .busError (transferIndex t) := by
  simp [busWrite, h, afterTransfer]

theorem busWrite_wait {t : Fin 16} {a v : Byte} {k : Byte → Byte → State → State} {s : State}
    (h : ∀ o es, s.inputs ≠ .xferDone o :: es) : busWrite t a v k s = s.request t a v := by
  unfold busWrite
  simp only [State.request_inputs]
  split
  · next heq => exact absurd heq (h _ _)
  · next heq => exact absurd heq (h _ _)
  · rfl

/-- Everything BusWrite can do: the reply goes to the caller, a failure raises BUS_ERROR, or the block waits. -/
theorem busWrite_cases (t : Fin 16) (a v : Byte) (k : Byte → Byte → State → State) (s : State) :
    (∃ r0 r1 es, s.inputs = .xferDone (.ok r0 r1) :: es ∧
      busWrite t a v k s = k r0 r1 (afterTransfer t a v (.ok r0 r1) es s)) ∨
    (∃ es, s.inputs = .xferDone .err :: es ∧
      busWrite t a v k s = (afterTransfer t a v .err es s).respond .busError (transferIndex t)) ∨
    ((∀ o es, s.inputs ≠ .xferDone o :: es) ∧ busWrite t a v k s = s.request t a v) := by
  rcases hi : s.inputs with _ | ⟨e, es⟩
  · exact .inr (.inr ⟨by simp, busWrite_wait (by simp [hi])⟩)
  · cases e with
    | xferDone o =>
      cases o with
      | ok r0 r1 => exact .inl ⟨r0, r1, es, rfl, busWrite_ok hi⟩
      | err => exact .inr (.inl ⟨es, rfl, busWrite_err hi⟩)
    | _ => exact .inr (.inr ⟨by simp, busWrite_wait (by simp [hi])⟩)

/-! ## Preconditions (R148) -/

theorem requireChannel_valid {ch : Byte} {k : State → State} {s : State} (h : validCh ch = true) :
    requireChannel ch k s = k s := by simp [requireChannel, h]

theorem requireChannel_invalid {ch : Byte} {k : State → State} {s : State} (h : validCh ch = false) :
    requireChannel ch k s = s.respond .invalidChannel 0x00 := by simp [requireChannel, h]

theorem requireInitialized_set {k : State → State} {s : State} (h : s.initialized = true) :
    requireInitialized k s = k s := by simp [requireInitialized, h]

theorem requireInitialized_clear {k : State → State} {s : State} (h : s.initialized = false) :
    requireInitialized k s = s.respond .notInitialized 0x00 := by simp [requireInitialized, h]

theorem validCh_iff (ch : Byte) : validCh ch = true ↔ ch.toNat < 12 := decide_eq_true_iff

theorem validCh_false_iff (ch : Byte) : validCh ch = false ↔ 12 ≤ ch.toNat := by
  rw [← Bool.not_eq_true, validCh_iff, not_lt]

end Sys2Proof.Machine
end

