-- ==== Sys2Proof/Laws/Exec.lean ====
section
/-! SUPPORT. What each meaning answers, as equations: one per way the command can end. -/

namespace Sys2Proof.Machine

variable {s : State} {ch value regid addr : Byte}

/-! ## The channel-enable vector (R112, R113) -/

theorem setChannel_same {e : ChannelVec} {on : Bool} (h : ch.toNat < 12) :
    (setChannel e ch on).getLsbD ch.toNat = on := by
  cases on <;> simp [setChannel, h]

theorem setChannel_other {e : ChannelVec} {on : Bool} {k : Nat} (h : k ≠ ch.toNat) :
    (setChannel e ch on).getLsbD k = e.getLsbD k := by
  cases on
  · simp only [setChannel, Bool.false_eq_true, if_false, BitVec.getLsbD_and, BitVec.getLsbD_not,
      BitVec.getLsbD_twoPow, h.symm, decide_false, Bool.and_false, Bool.not_false, Bool.and_true]
    cases he : e.getLsbD k
    · rfl
    · simp [BitVec.lt_of_getLsbD he]
  · simp [setChannel, h.symm]

theorem setChannel_noop {e : ChannelVec} {on : Bool} (h : ch.toNat < 12) (he : e.getLsbD ch.toNat = on) :
    setChannel e ch on = e := by
  refine BitVec.eq_of_getLsbD_eq fun k _ => ?_
  by_cases hk : k = ch.toNat
  · rw [hk, setChannel_same h, he]
  · exact setChannel_other hk

/-! ## IS_INITIALIZED -/

theorem exec_isInitialized :
    exec .isInitialized s = .next ((s.latch opIsInitialized 0 0).respond .ok (flagByte s.initialized)) := rfl

/-! ## ENABLE_CHANNEL and DISABLE_CHANNEL -/

theorem switchChannel_ok {on : Bool} (h : ch.toNat < 12) (hi : s.initialized = true) :
    switchChannel ch on s = (s.putChannel ch on).respond .ok 0x00 := by
  rw [switchChannel, requireChannel_valid ((validCh_iff ch).2 h), requireInitialized_set hi, complete_eq]

theorem switchChannel_invalid {on : Bool} (h : 12 ≤ ch.toNat) :
    switchChannel ch on s = s.respond .invalidChannel 0x00 := by
  rw [switchChannel, requireChannel_invalid ((validCh_false_iff ch).2 h)]

theorem switchChannel_clear {on : Bool} (h : ch.toNat < 12) (hi : s.initialized = false) :
    switchChannel ch on s = s.respond .notInitialized 0x00 := by
  rw [switchChannel, requireChannel_valid ((validCh_iff ch).2 h), requireInitialized_clear hi]

theorem exec_enableChannel :
    exec (.enableChannel ch) s = .next (switchChannel ch true (s.latch opEnableChannel ch 0)) := rfl

theorem exec_disableChannel :
    exec (.disableChannel ch) s = .next (switchChannel ch false (s.latch opDisableChannel ch 0)) := rfl

theorem exec_enableChannel_ok (h : ch.toNat < 12) (hi : s.initialized = true) :
    exec (.enableChannel ch) s = .next (((s.latch opEnableChannel ch 0).putChannel ch true).respond .ok 0x00) := by
  rw [exec_enableChannel, switchChannel_ok h (by exact hi)]

theorem exec_disableChannel_ok (h : ch.toNat < 12) (hi : s.initialized = true) :
    exec (.disableChannel ch) s = .next (((s.latch opDisableChannel ch 0).putChannel ch false).respond .ok 0x00) := by
  rw [exec_disableChannel, switchChannel_ok h (by exact hi)]

theorem exec_enableChannel_invalid (h : 12 ≤ ch.toNat) :
    exec (.enableChannel ch) s = .next ((s.latch opEnableChannel ch 0).respond .invalidChannel 0x00) := by
  rw [exec_enableChannel, switchChannel_invalid h]

theorem exec_disableChannel_invalid (h : 12 ≤ ch.toNat) :
    exec (.disableChannel ch) s = .next ((s.latch opDisableChannel ch 0).respond .invalidChannel 0x00) := by
  rw [exec_disableChannel, switchChannel_invalid h]

theorem exec_enableChannel_clear (h : ch.toNat < 12) (hi : s.initialized = false) :
    exec (.enableChannel ch) s = .next ((s.latch opEnableChannel ch 0).respond .notInitialized 0x00) := by
  rw [exec_enableChannel, switchChannel_clear h (by exact hi)]

theorem exec_disableChannel_clear (h : ch.toNat < 12) (hi : s.initialized = false) :
    exec (.disableChannel ch) s = .next ((s.latch opDisableChannel ch 0).respond .notInitialized 0x00) := by
  rw [exec_disableChannel, switchChannel_clear h (by exact hi)]

/-- Everything the two channel mutations can do. -/
theorem switchChannel_cases (ch : Byte) (on : Bool) (s : State) :
    (12 ≤ ch.toNat ∧ switchChannel ch on s = s.respond .invalidChannel 0x00) ∨
    (ch.toNat < 12 ∧ s.initialized = false ∧ switchChannel ch on s = s.respond .notInitialized 0x00) ∨
    (ch.toNat < 12 ∧ s.initialized = true ∧ switchChannel ch on s = (s.putChannel ch on).respond .ok 0x00) := by
  rcases Nat.lt_or_ge ch.toNat 12 with h | h
  · cases hi : s.initialized
    · exact .inr (.inl ⟨h, rfl, switchChannel_clear h hi⟩)
    · exact .inr (.inr ⟨h, rfl, switchChannel_ok h hi⟩)
  · exact .inl ⟨h, switchChannel_invalid h⟩

/-! ## UPDATE_ALL_CHANNELS -/

theorem exec_updateAllChannels_set (hi : s.initialized = true) :
    exec .updateAllChannels s =
      .next (flushGroups (pack0 s.chEn) (pack1 s.chEn) (s.latch opUpdateAllChannels 0 0)) := by
  rw [exec, execUpdateAllChannels, requireInitialized_set (by exact hi)]
  rfl

theorem exec_updateAllChannels_clear (hi : s.initialized = false) :
    exec .updateAllChannels s = .next ((s.latch opUpdateAllChannels 0 0).respond .notInitialized 0x00) := by
  rw [exec, execUpdateAllChannels, requireInitialized_clear (by exact hi)]

/-- Everything the two group writes can do: both succeed, the second fails or waits, the first fails or waits. -/
theorem flushGroups_cases (m0 m1 : Byte) (s : State) :
    (∃ r0 r1 es, s.inputs = .xferDone (.ok r0 r1) :: es ∧
      flushGroups m0 m1 s =
        busWrite 1 grp1Addr m1 (fun _ _ s => s.respond .ok 0x00) (afterTransfer 0 grp0Addr m0 (.ok r0 r1) es s)) ∨
    (∃ es, s.inputs = .xferDone .err :: es ∧
      flushGroups m0 m1 s = (afterTransfer 0 grp0Addr m0 .err es s).respond .busError (transferIndex 0)) ∨
    ((∀ o es, s.inputs ≠ .xferDone o :: es) ∧ flushGroups m0 m1 s = s.request 0 grp0Addr m0) :=
  busWrite_cases 0 grp0Addr m0 _ s

/-- How UPDATE_ALL_CHANNELS leaves the block. -/
inductive UpdateEnd (s u : State) : Prop where
  | clear (h : s.initialized = false) (hu : u = (s.latch opUpdateAllChannels 0 0).respond .notInitialized 0x00)
  | waitsFirst (h : s.initialized = true)
      (hu : u = (s.latch opUpdateAllChannels 0 0).request 0 grp0Addr (pack0 s.chEn))
  | failsFirst (h : s.initialized = true) (es : List PortEvent)
      (hu : u = (afterTransfer 0 grp0Addr (pack0 s.chEn) .err es (s.latch opUpdateAllChannels 0 0)).respond .busError 0)
  | waitsSecond (h : s.initialized = true) (r0 r1 : Byte) (es : List PortEvent)
      (hu : u = (afterTransfer 0 grp0Addr (pack0 s.chEn) (.ok r0 r1) es (s.latch opUpdateAllChannels 0 0)).request 1
        grp1Addr (pack1 s.chEn))
  | failsSecond (h : s.initialized = true) (r0 r1 : Byte) (es es' : List PortEvent)
      (hu : u = (afterTransfer 1 grp1Addr (pack1 s.chEn) .err es' (afterTransfer 0 grp0Addr (pack0 s.chEn) (.ok r0 r1) es
        (s.latch opUpdateAllChannels 0 0))).respond .busError 1)
  | success (h : s.initialized = true) (r0 r1 q0 q1 : Byte) (es es' : List PortEvent)
      (hu : u = (afterTransfer 1 grp1Addr (pack1 s.chEn) (.ok q0 q1) es' (afterTransfer 0 grp0Addr (pack0 s.chEn)
        (.ok r0 r1) es (s.latch opUpdateAllChannels 0 0))).respond .ok 0x00)

/-- Everything UPDATE_ALL_CHANNELS can do. -/
theorem exec_updateAllChannels_cases (s : State) : ∃ u, exec .updateAllChannels s = .next u ∧ UpdateEnd s u := by
  cases hi : s.initialized
  · exact ⟨_, exec_updateAllChannels_clear hi, .clear hi rfl⟩
  · rw [exec_updateAllChannels_set hi]
    refine ⟨_, rfl, ?_⟩
    rcases flushGroups_cases (pack0 s.chEn) (pack1 s.chEn) (s.latch opUpdateAllChannels 0 0) with
      ⟨r0, r1, es, -, hb⟩ | ⟨es, -, hb⟩ | ⟨-, hb⟩
    · rw [hb]
      rcases busWrite_cases 1 grp1Addr (pack1 s.chEn) (fun _ _ s => s.respond .ok 0x00)
        (afterTransfer 0 grp0Addr (pack0 s.chEn) (.ok r0 r1) es (s.latch opUpdateAllChannels 0 0)) with
        ⟨q0, q1, es', -, hb'⟩ | ⟨es', -, hb'⟩ | ⟨-, hb'⟩
      · exact .success hi r0 r1 q0 q1 es es' hb'
      · exact .failsSecond hi r0 r1 es es' hb'
      · exact .waitsSecond hi r0 r1 es hb'
    · exact .failsFirst hi es hb
    · exact .waitsFirst hi hb

/-! ## SET_CHANNEL_CALIBRATION -/

theorem exec_setChannelCalibration_set (h : ch.toNat < 12) (hi : s.initialized = true) :
    exec (.setChannelCalibration ch value) s =
      .next (busWrite 0 (calAddr ch) value (fun _ _ s => s.respond .ok 0x00)
        (s.latch opSetChannelCalibration ch value)) := by
  rw [exec, execSetChannelCalibration, requireChannel_valid ((validCh_iff ch).2 h),
    requireInitialized_set (by exact hi)]
  rfl

theorem exec_setChannelCalibration_invalid (h : 12 ≤ ch.toNat) :
    exec (.setChannelCalibration ch value) s =
      .next ((s.latch opSetChannelCalibration ch value).respond .invalidChannel 0x00) := by
  rw [exec, execSetChannelCalibration, requireChannel_invalid ((validCh_false_iff ch).2 h)]

theorem exec_setChannelCalibration_clear (h : ch.toNat < 12) (hi : s.initialized = false) :
    exec (.setChannelCalibration ch value) s =
      .next ((s.latch opSetChannelCalibration ch value).respond .notInitialized 0x00) := by
  rw [exec, execSetChannelCalibration, requireChannel_valid ((validCh_iff ch).2 h),
    requireInitialized_clear (by exact hi)]

/-- How SET_CHANNEL_CALIBRATION leaves the block. -/
inductive CalibrationEnd (ch value : Byte) (s u : State) : Prop where
  | invalid (h : 12 ≤ ch.toNat) (hu : u = (s.latch opSetChannelCalibration ch value).respond .invalidChannel 0x00)
  | clear (h : ch.toNat < 12) (hi : s.initialized = false)
      (hu : u = (s.latch opSetChannelCalibration ch value).respond .notInitialized 0x00)
  | waits (h : ch.toNat < 12) (hi : s.initialized = true)
      (hu : u = (s.latch opSetChannelCalibration ch value).request 0 (calAddr ch) value)
  | fails (h : ch.toNat < 12) (hi : s.initialized = true) (es : List PortEvent)
      (hu : u = (afterTransfer 0 (calAddr ch) value .err es (s.latch opSetChannelCalibration ch value)).respond .busError
        0)
  | success (h : ch.toNat < 12) (hi : s.initialized = true) (r0 r1 : Byte) (es : List PortEvent)
      (hu : u = (afterTransfer 0 (calAddr ch) value (.ok r0 r1) es (s.latch opSetChannelCalibration ch value)).respond .ok
        0x00)

/-- Everything SET_CHANNEL_CALIBRATION can do. -/
theorem exec_setChannelCalibration_cases (ch value : Byte) (s : State) :
    ∃ u, exec (.setChannelCalibration ch value) s = .next u ∧ CalibrationEnd ch value s u := by
  rcases Nat.lt_or_ge ch.toNat 12 with h | h
  · cases hi : s.initialized
    · exact ⟨_, exec_setChannelCalibration_clear h hi, .clear h hi rfl⟩
    · rw [exec_setChannelCalibration_set h hi]
      refine ⟨_, rfl, ?_⟩
      rcases busWrite_cases 0 (calAddr ch) value (fun _ _ s => s.respond .ok 0x00)
        (s.latch opSetChannelCalibration ch value) with ⟨r0, r1, es, -, hb⟩ | ⟨es, -, hb⟩ | ⟨-, hb⟩
      · exact .success h hi r0 r1 es hb
      · exact .fails h hi es hb
      · exact .waits h hi hb
  · exact ⟨_, exec_setChannelCalibration_invalid h, .invalid h rfl⟩

/-! ## ADDR_OF and DECODE_ADDR -/

theorem addrOf_of_isName {sw id : Byte} (h : isName sw id = true) : ∃ a, addrOf sw id = some a := by
  unfold addrOf
  simp only [h, if_true]
  split_ifs <;> try exact ⟨_, rfl⟩
  have hid : ¬ id ≤ 0x0F#8 := by bv_omega
  simp only [isName, hid, if_false] at h
  split at h
  · next heq => exact ⟨_, heq⟩
  · cases h

theorem addrOf_of_not_isName {sw id : Byte} (h : isName sw id = false) : addrOf sw id = none := by simp [addrOf, h]

theorem exec_addrOf_some {a : Byte} (h : addrOf s.cfg.swResetAddr regid = some a) :
    exec (.addrOf regid) s = .next ((s.latch opAddrOf 0 regid).respond .ok a) := by
  simp [exec, execAddrOf, h]

theorem exec_addrOf_none (h : addrOf s.cfg.swResetAddr regid = none) :
    exec (.addrOf regid) s = .next ((s.latch opAddrOf 0 regid).respond .illegalCommand 0x00) := by
  simp [exec, execAddrOf, h]

theorem exec_decodeAddr_some {id : Byte} (h : idOfAddr s.cfg.swResetAddr addr = some id) :
    exec (.decodeAddr addr) s = .next ((s.latch opDecodeAddr 0 addr).respond .ok id) := by
  simp [exec, execDecodeAddr, h]

theorem exec_decodeAddr_none (h : idOfAddr s.cfg.swResetAddr addr = none) :
    exec (.decodeAddr addr) s = .next ((s.latch opDecodeAddr 0 addr).respond .invalidAddress 0x00) := by
  simp [exec, execDecodeAddr, h]

/-- No meaning stops: each answers a next state. -/
theorem exec_next (i : Instr) (s : State) : ∃ t, exec i s = .next t := by cases i <;> exact ⟨_, rfl⟩

end Sys2Proof.Machine
end

