-- ==== Sys2Proof/Laws/Init.lean ====
section
/-! SUPPORT. The handshake loop of 41_init R91: a run of successful transfers, and everything the loop can do. -/

namespace Sys2Proof.Machine

/-- The event of a successful transfer `t` with reply `r t`. -/
def okEvent (r : Fin 16 → Byte × Byte) (t : Fin 16) : PortEvent := .xferDone (.ok (r t).1 (r t).2)

/-- The state after the transfers `ts` of the handshake have succeeded with replies `r`. -/
def afterRun (r : Fin 16 → Byte × Byte) : List (Fin 16) → State → State
  | [], s => s
  | t :: ts, s =>
    afterRun r ts (afterTransfer t initSeq[t].1 initSeq[t].2 (.ok (r t).1 (r t).2) s.inputs.tail s)

/-- The reply to transfer `t` passes the echo check of the state's parameters. -/
def Accepted (fec : Bool) (r : Fin 16 → Byte × Byte) (t : Fin 16) : Prop :=
  echoAccepted fec t (r t).1 (r t).2 = true

/-! ## The echo check, in the words of R92 to R94 -/

theorem accepted_iff (fec : Bool) (r : Fin 16 → Byte × Byte) (k : Fin 16) :
    Accepted fec r k ↔ EchoesPrevious fec r k := by
  unfold Accepted echoAccepted EchoesPrevious
  split
  · next h =>
    simp only [beq_iff_eq, Prod.mk.eta]
    have hk : (k - 1).val + 1 = k.val := by fin_cases k <;> first | rfl | simp at h
    constructor
    · intro hr j hj _
      have : j = k - 1 := Fin.ext (by omega)
      rw [this]; exact hr
    · intro hr
      exact hr (k - 1) hk.symm fun h15 => h.2.resolve_left (by omega)
  · next h =>
    simp only [true_iff]
    intro j hj h15
    exact absurd ⟨by omega, by by_cases h14 : k.val ≤ 14 <;> [exact .inl h14; exact .inr (h15 (by omega))]⟩ h

/-! ## A run of successful transfers, field by field -/

section Fields
variable (r : Fin 16 → Byte × Byte) (ts : List (Fin 16)) (s : State)

@[simp] theorem afterRun_cfg : (afterRun r ts s).cfg = s.cfg := by
  induction ts generalizing s <;> simp_all [afterRun, afterTransfer]

@[simp] theorem afterRun_initialized : (afterRun r ts s).initialized = s.initialized := by
  induction ts generalizing s <;> simp_all [afterRun, afterTransfer]

@[simp] theorem afterRun_chEn : (afterRun r ts s).chEn = s.chEn := by
  induction ts generalizing s <;> simp_all [afterRun, afterTransfer]

@[simp] theorem afterRun_op : (afterRun r ts s).op = s.op := by
  induction ts generalizing s <;> simp_all [afterRun, afterTransfer]

@[simp] theorem afterRun_ch : (afterRun r ts s).ch = s.ch := by
  induction ts generalizing s <;> simp_all [afterRun, afterTransfer]

@[simp] theorem afterRun_arg : (afterRun r ts s).arg = s.arg := by
  induction ts generalizing s <;> simp_all [afterRun, afterTransfer]

@[simp] theorem afterRun_responses : (afterRun r ts s).responses = s.responses := by
  induction ts generalizing s <;> simp_all [afterRun, afterTransfer]

@[simp] theorem afterRun_inputs : (afterRun r ts s).inputs = s.inputs.drop ts.length := by
  induction ts generalizing s <;> simp_all [afterRun, afterTransfer]

@[simp] theorem afterRun_transfers :
    (afterRun r ts s).transfers =
      s.transfers ++ ts.map fun t => handshakeTransfer t (.ok (r t).1 (r t).2) := by
  induction ts generalizing s <;> simp_all [afterRun, afterTransfer, handshakeTransfer]

theorem afterRun_read_other {a : Nat} (h : ∀ t ∈ ts, a ≠ initSeq[t].1.toNat) :
    Memory.read (afterRun r ts s).delivered a = Memory.read s.delivered a := by
  induction ts generalizing s with
  | nil => rfl
  | cons t ts ih =>
    rw [afterRun, ih _ fun u hu => h u (List.mem_cons_of_mem _ hu)]
    exact afterTransfer_read_other (h t List.mem_cons_self)

theorem afterRun_append (us : List (Fin 16)) : afterRun r (ts ++ us) s = afterRun r us (afterRun r ts s) := by
  induction ts generalizing s with
  | nil => rfl
  | cons t ts ih => exact ih _

end Fields

/-! ## The loop -/

/-- The loop passes over transfers that succeed with replies that are accepted. -/
theorem initLoop_run {r : Fin 16 → Byte × Byte} {ts us : List (Fin 16)} {s : State} {es : List PortEvent}
    (hin : s.inputs = ts.map (okEvent r) ++ es) (hacc : ∀ t ∈ ts, Accepted s.cfg.finalEchoCheck r t) :
    initLoop (ts ++ us) s = initLoop us (afterRun r ts s) := by
  induction ts generalizing s with
  | nil => rfl
  | cons t ts ih =>
    have hin' : s.inputs = .xferDone (.ok (r t).1 (r t).2) :: (ts.map (okEvent r) ++ es) := hin
    have ha : echoAccepted s.cfg.finalEchoCheck t (r t).1 (r t).2 = true := hacc t List.mem_cons_self
    rw [List.cons_append, initLoop, busWrite_ok hin', if_pos (by exact ha), afterRun, hin']
    exact ih rfl fun u hu => hacc u (List.mem_cons_of_mem _ hu)

/-- How the loop ends after the transfers it has passed over: success, a transfer that gets no answer, a failed
transfer, or a reply that fails the echo check. -/
inductive LoopEnd (r : Fin 16 → Byte × Byte) (pre suf : List (Fin 16)) (es : List PortEvent) (s u : State) : Prop where
  | success (h : suf = []) (hu : u = initSucceeded (afterRun r pre s))
  | waits (t : Fin 16) (ts : List (Fin 16)) (h : suf = t :: ts) (hes : ∀ o es', es ≠ .xferDone o :: es')
      (hu : u = (afterRun r pre s).request t initSeq[t].1 initSeq[t].2)
  | fails (t : Fin 16) (ts : List (Fin 16)) (es' : List PortEvent) (h : suf = t :: ts)
      (hes : es = .xferDone .err :: es')
      (hu : u = (afterTransfer t initSeq[t].1 initSeq[t].2 .err es' (afterRun r pre s)).respond .busError
        (transferIndex t))
  | mismatch (t : Fin 16) (ts : List (Fin 16)) (q0 q1 : Byte) (es' : List PortEvent) (h : suf = t :: ts)
      (hes : es = .xferDone (.ok q0 q1) :: es') (hq : echoAccepted s.cfg.finalEchoCheck t q0 q1 = false)
      (hu : u = (afterTransfer t initSeq[t].1 initSeq[t].2 (.ok q0 q1) es' (afterRun r pre s)).respond .commError
        (transferIndex t))

theorem afterRun_congr {r q : Fin 16 → Byte × Byte} {ts : List (Fin 16)} (h : ∀ t ∈ ts, r t = q t) (s : State) :
    afterRun r ts s = afterRun q ts s := by
  induction ts generalizing s with
  | nil => rfl
  | cons t ts ih =>
    rw [afterRun, afterRun, h t List.mem_cons_self, ih fun u hu => h u (List.mem_cons_of_mem _ hu)]

/-- Everything the loop can do. -/
theorem initLoop_cases {ts : List (Fin 16)} (hnd : ts.Nodup) (s : State) :
    ∃ (r : Fin 16 → Byte × Byte) (pre suf : List (Fin 16)) (es : List PortEvent),
      ts = pre ++ suf ∧ s.inputs = pre.map (okEvent r) ++ es ∧
      (∀ t ∈ pre, Accepted s.cfg.finalEchoCheck r t) ∧ LoopEnd r pre suf es s (initLoop ts s) := by
  induction ts generalizing s with
  | nil => exact ⟨fun _ => (0, 0), [], [], s.inputs, rfl, rfl, by simp, .success rfl rfl⟩
  | cons t ts ih =>
    rw [List.nodup_cons] at hnd
    rw [initLoop]
    rcases busWrite_cases t initSeq[t].1 initSeq[t].2
      (fun r0 r1 s => if echoAccepted s.cfg.finalEchoCheck t r0 r1 then initLoop ts s
        else raise .commError (transferIndex t) s) s with ⟨r0, r1, es, hin, hb⟩ | ⟨es, hin, hb⟩ | ⟨hin, hb⟩
    · rw [hb]
      cases ha : echoAccepted s.cfg.finalEchoCheck t r0 r1
      · have ha' : echoAccepted (afterTransfer t initSeq[t].1 initSeq[t].2 (.ok r0 r1) es s).cfg.finalEchoCheck t r0 r1
            = false := ha
        simp only [ha', Bool.false_eq_true, if_false]
        exact ⟨fun _ => (0, 0), [], t :: ts, s.inputs, rfl, rfl, by simp, .mismatch t ts r0 r1 es rfl hin ha rfl⟩
      · have ha' : echoAccepted (afterTransfer t initSeq[t].1 initSeq[t].2 (.ok r0 r1) es s).cfg.finalEchoCheck t r0 r1
            = true := ha
        simp only [ha', if_true]
        obtain ⟨r, pre, suf, es', hts, hin', hacc, hend⟩ :=
          ih hnd.2 (afterTransfer t initSeq[t].1 initSeq[t].2 (.ok r0 r1) es s)
        let q := Function.update r t (r0, r1)
        have hpre : ∀ u ∈ pre, r u = q u := fun u hu => by
          have : u ≠ t := fun h => hnd.1 (h ▸ hts ▸ List.mem_append_left _ hu)
          simp [q, this]
        have hqt : q t = (r0, r1) := by simp [q]
        have hes : es = pre.map (okEvent q) ++ es' := by
          have : es = pre.map (okEvent r) ++ es' := hin'
          rw [this]
          congr 1
          exact List.map_congr_left fun u hu => by rw [okEvent, okEvent, hpre u hu]
        have hrun : afterRun q (t :: pre) s =
            afterRun r pre (afterTransfer t initSeq[t].1 initSeq[t].2 (.ok r0 r1) es s) := by
          rw [afterRun, hqt, hin, afterRun_congr hpre]
          rfl
        refine ⟨q, t :: pre, suf, es', by rw [hts]; rfl, ?_, ?_, ?_⟩
        · rw [hin, hes, List.map_cons, okEvent, hqt]
          rfl
        · intro u hu
          rcases List.mem_cons.1 hu with rfl | hu
          · rw [Accepted, hqt]
            exact ha
          · rw [Accepted, ← hpre u hu]
            exact hacc u hu
        · cases hend with
          | success h hu => exact .success h (by rw [hrun]; exact hu)
          | waits v vs h hes hu => exact .waits v vs h hes (by rw [hrun]; exact hu)
          | fails v vs es'' h hes hu => exact .fails v vs es'' h hes (by rw [hrun]; exact hu)
          | mismatch v vs q0 q1 es'' h hes hq hu => exact .mismatch v vs q0 q1 es'' h hes hq (by rw [hrun]; exact hu)
    · rw [hb]
      exact ⟨fun _ => (0, 0), [], t :: ts, s.inputs, rfl, rfl, by simp, .fails t ts es rfl hin rfl⟩
    · rw [hb]
      exact ⟨fun _ => (0, 0), [], t :: ts, s.inputs, rfl, rfl, by simp, .waits t ts rfl hin rfl⟩

/-- An address of the table holds its value after the run, if it held it before or was written in it; the table
writes one value to each address. -/
theorem afterRun_read_table (r : Fin 16 → Byte × Byte) (ts : List (Fin 16)) (s : State) (k : Fin 16)
    (h : k ∈ ts ∨ Memory.read s.delivered initSeq[k].1.toNat = some initSeq[k].2) :
    Memory.read (afterRun r ts s).delivered initSeq[k].1.toNat = some initSeq[k].2 := by
  have huniq : ∀ t u : Fin 16, initSeq[t].1 = initSeq[u].1 → initSeq[t].2 = initSeq[u].2 := by decide
  induction ts generalizing s with
  | nil => exact h.resolve_left (by simp)
  | cons t ts ih =>
    refine ih _ ?_
    by_cases ha : initSeq[t].1 = initSeq[k].1
    · refine .inr ?_
      rw [← huniq t k ha, ← ha]
      exact afterTransfer_read_ok
    · have hne : initSeq[k].1.toNat ≠ initSeq[t].1.toNat := fun he => ha (BitVec.eq_of_toNat_eq he).symm
      refine h.imp (fun hk => ?_) fun hr => (afterTransfer_read_other hne).trans hr
      rcases List.mem_cons.1 hk with rfl | hk
      · exact absurd rfl ha
      · exact hk

/-! ## The sixteen transfers in order -/

theorem finRange_drop (n : Fin 16) :
    (List.finRange 16).drop n.val = n :: (List.finRange 16).drop (n.val + 1) := by fin_cases n <;> rfl

theorem finRange_take (n : Fin 16) :
    (List.finRange 16).take (n.val + 1) = (List.finRange 16).take n.val ++ [n] := by fin_cases n <;> rfl

theorem accepted_of_echoes {fec : Bool} {r : Fin 16 → Byte × Byte} {n : Nat} (h : EchoesUpTo fec r n) :
    ∀ t ∈ (List.finRange 16).take n, Accepted fec r t := by
  intro t ht
  refine (accepted_iff _ _ _).2 (h t ?_)
  rw [List.mem_take_iff_getElem] at ht
  obtain ⟨i, hi, rfl⟩ := ht
  simp only [List.length_finRange, lt_inf_iff] at hi
  simpa using hi.1

/-- The run of the first `n` transfers of the handshake. -/
def runFirst (n : Nat) (r : Fin 16 → Byte × Byte) (s : State) : State :=
  afterRun r ((List.finRange 16).take n) (s.latch opInit 0 0)

theorem runFirst_inputs {n : Nat} {r : Fin 16 → Byte × Byte} {s : State} {es : List PortEvent}
    (h : s.inputs = okAnswers n r ++ es) : (runFirst n r s).inputs = es := by
  rw [runFirst, afterRun_inputs, State.latch_inputs, h, okAnswers, List.drop_append]
  simp

theorem firstPairs_eq (n : Nat) : firstPairs n = ((List.finRange 16).take n).map fun k => initSeq[k] := by
  rw [firstPairs, List.map_take]
  congr 1

/-- The run of the first `n` transfers delivers them and nothing else. -/
theorem handshakeBytes_runFirst (n : Nat) (r : Fin 16 → Byte × Byte) (s : State) :
    HandshakeBytes s (runFirst n r s) n n := by
  unfold HandshakeBytes SameBytesOutside
  simp only [firstPairs_eq, List.mem_map, List.map_map]
  constructor
  · rintro _ ⟨k, hk, rfl⟩
    exact afterRun_read_table r _ _ k (.inl hk)
  · exact fun a ha => afterRun_read_other r _ _ fun k hk => ha _ ⟨k, hk, rfl⟩

/-- One more transfer of the handshake, whatever its outcome, touches only its own address. -/
theorem handshakeBytes_afterTransfer {k : Fin 16} {s u : State} (h : HandshakeBytes s u k.val k.val) (o : XferOutcome)
    (es : List PortEvent) :
    HandshakeBytes s (afterTransfer k initSeq[k].1 initSeq[k].2 o es u) k.val (k.val + 1) := by
  have huniq : ∀ t u : Fin 16, initSeq[t].1 = initSeq[u].1 → initSeq[t].2 = initSeq[u].2 := by decide
  unfold HandshakeBytes SameBytesOutside at *
  rw [firstPairs_eq (k.val + 1), finRange_take k]
  rw [firstPairs_eq] at *
  simp only [List.mem_map, List.map_map, List.map_append, List.mem_append, List.map_cons, List.map_nil,
    List.mem_singleton] at *
  constructor
  · rintro _ ⟨j, hj, rfl⟩
    have hr := h.1 _ ⟨j, hj, rfl⟩
    by_cases ha : initSeq[k].1 = initSeq[j].1
    · rcases afterTransfer_maybe (t := k) (a := initSeq[k].1) (v := initSeq[k].2) (o := o) (es := es) (s := u) with hm | hm
      · rw [← ha, hm, huniq k j ha]
      · rw [← ha, hm, ha, hr]
    · rw [afterTransfer_read_other fun he => ha (BitVec.eq_of_toNat_eq he).symm, hr]
  · intro a ha
    rw [afterTransfer_read_other (ha _ (.inr rfl))]
    exact h.2 a fun b hb => ha b (.inl hb)

theorem exec_init (s : State) : exec .init s = .next (initLoop (List.finRange 16) (s.latch opInit 0 0)) := rfl

/-- INIT after `n` successful transfers with replies that pass. -/
theorem exec_init_run {s : State} {r : Fin 16 → Byte × Byte} {n : Nat} {es : List PortEvent}
    (hin : s.inputs = okAnswers n r ++ es) (h : EchoesUpTo s.cfg.finalEchoCheck r n) :
    exec .init s = .next (initLoop ((List.finRange 16).drop n) (runFirst n r s)) := by
  rw [exec_init]
  conv_lhs => rw [← List.take_append_drop n (List.finRange 16)]
  rw [initLoop_run (es := es) (by exact hin) (by exact accepted_of_echoes h), runFirst]

end Sys2Proof.Machine
end

