-- ==== Sys2Proof/Laws/PerInstr.lean ====
section
/-! SUPPORT. Statements made per instruction. `EncodeMatchesRow`: the word of a command matches the row of the opcode
table that has its mnemonic (30_encoding R62). -/

namespace Sys2Proof.Laws.EncodeMatchesRow

/-- The row of R62 for a command. -/
def row : Instr → OpcodeRow
  | .init => ⟨"INIT", 0xFFFFFFFF, 0x00000001⟩
  | .isInitialized => ⟨"IS_INITIALIZED", 0xFFFFFFFF, 0x00000002⟩
  | .enableChannel _ => ⟨"ENABLE_CHANNEL", 0xFFFF00FF, 0x00000003⟩
  | .disableChannel _ => ⟨"DISABLE_CHANNEL", 0xFFFF00FF, 0x00000004⟩
  | .updateAllChannels => ⟨"UPDATE_ALL_CHANNELS", 0xFFFFFFFF, 0x00000005⟩
  | .setChannelCalibration _ _ => ⟨"SET_CHANNEL_CALIBRATION", 0xFF0000FF, 0x00000006⟩
  | .addrOf _ => ⟨"ADDR_OF", 0xFF00FFFF, 0x00000008⟩
  | .decodeAddr _ => ⟨"DECODE_ADDR", 0xFF00FFFF, 0x00000009⟩

/-- The command's word matches its row, and the row carries its mnemonic. -/
def Statement (i : Instr) : Prop :=
  row i ∈ opcodeTable ∧ (row i).mnemonic = i.mnemonic ∧ encode i &&& (row i).mask = (row i).pattern

theorem init : Statement .init := by unfold Statement; decide

theorem isInitialized : Statement .isInitialized := by unfold Statement; decide

theorem updateAllChannels : Statement .updateAllChannels := by unfold Statement; decide

/-- A mask that drops the channel field. -/
theorem mask_channel (op : BitVec 4) (ch arg : Byte) :
    packCommand op ch arg &&& 0xFFFF00FF#32 = packCommand op 0 arg := by
  refine BitVec.eq_of_getLsbD_eq fun i hi => ?_
  interval_cases i <;> simp [packCommand]

/-- A mask that drops the channel and argument fields. -/
theorem mask_channel_arg (op : BitVec 4) (ch arg : Byte) :
    packCommand op ch arg &&& 0xFF0000FF#32 = packCommand op 0 0 := by
  refine BitVec.eq_of_getLsbD_eq fun i hi => ?_
  interval_cases i <;> simp [packCommand]

/-- A mask that drops the argument field. -/
theorem mask_arg (op : BitVec 4) (ch arg : Byte) :
    packCommand op ch arg &&& 0xFF00FFFF#32 = packCommand op ch 0 := by
  refine BitVec.eq_of_getLsbD_eq fun i hi => ?_
  interval_cases i <;> simp [packCommand]

theorem enableChannel (ch : Byte) : Statement (.enableChannel ch) :=
  ⟨by simp [row, opcodeTable], rfl, (mask_channel opEnableChannel ch 0).trans rfl⟩

theorem disableChannel (ch : Byte) : Statement (.disableChannel ch) :=
  ⟨by simp [row, opcodeTable], rfl, (mask_channel opDisableChannel ch 0).trans rfl⟩

theorem setChannelCalibration (ch value : Byte) : Statement (.setChannelCalibration ch value) :=
  ⟨by simp [row, opcodeTable], rfl, (mask_channel_arg opSetChannelCalibration ch value).trans rfl⟩

theorem addrOf (regid : Byte) : Statement (.addrOf regid) :=
  ⟨by simp [row, opcodeTable], rfl, (mask_arg opAddrOf 0 regid).trans rfl⟩

theorem decodeAddr (addr : Byte) : Statement (.decodeAddr addr) :=
  ⟨by simp [row, opcodeTable], rfl, (mask_arg opDecodeAddr 0 addr).trans rfl⟩

end Sys2Proof.Laws.EncodeMatchesRow
end

