-- ==== Sys2Proof/Laws/Step.lean ====
section
/-! SUPPORT. What one step does to each kind of event, and everything a step can be. -/

namespace Sys2Proof.Machine

theorem step_nil {s : State} (h : s.inputs = []) : step s = .next s := by simp [step, nextEvent, h]

theorem step_cons {s : State} {e : PortEvent} {es : List PortEvent} (h : s.inputs = e :: es) :
    step s = onEvent acceptWord e (s.withInputs es) := by simp [step, nextEvent, h]

theorem portStep_nil {s : State} (h : s.inputs = []) : portStep s = .next s := by simp [portStep, nextEvent, h]

theorem portStep_cons {s : State} {e : PortEvent} {es : List PortEvent} (h : s.inputs = e :: es) :
    portStep s = onEvent acceptWordFirst e (s.withInputs es) := by simp [portStep, nextEvent, h]

/-! ## Runs, one step at a time -/

theorem core_run_zero (s : State) : Host.Core.run core 0 s = .next s := rfl

theorem core_run_next {n : Nat} {s t : State} (h : step s = .next t) :
    Host.Core.run core (n + 1) s = Host.Core.run core n t := by
  have h' : core.step s = .next t := h
  simp only [Host.Core.run, h']

theorem core_run_fault {n : Nat} {s : State} {f : Fault} (h : step s = .fault f) :
    Host.Core.run core (n + 1) s = .fault f := by
  have h' : core.step s = .fault f := h
  simp only [Host.Core.run, h']

/-! ## One step -/

/-- Everything one step can be: nothing to come, `rst`, a word accepted or rejected, a transfer ending, the response
taken, or an event the phase does not listen to. -/
inductive StepKind (s : State) : Host.Outcome State Fault Refusal → Prop where
  | waits (h : s.inputs = []) : StepKind s (.next s)
  | rst (es : List PortEvent) (h : s.inputs = .rst :: es) : StepKind s (.next (s.withInputs es).rst)
  | runs (w : Command) (es : List PortEvent) (i : Instr) (hp : s.phase = .idle) (h : s.inputs = .command w :: es)
      (hd : decode s.cfg.swResetAddr w = .ok i) : StepKind s (exec i (s.withInputs es))
  | rejects (w : Command) (es : List PortEvent) (e : DecodeError) (hp : s.phase = .idle)
      (h : s.inputs = .command w :: es) (hd : decode s.cfg.swResetAddr w = .error e) :
      StepKind s (.next (rejectWord w (s.withInputs es)))
  | transfer (o : XferOutcome) (es : List PortEvent) (hp : s.phase = .busy) (h : s.inputs = .xferDone o :: es) :
      StepKind s (onXferDone o (s.withInputs es))
  | takes (es : List PortEvent) (hp : s.phase = .resp) (h : s.inputs = .rspReady :: es) :
      StepKind s (.next (s.withInputs es).takeResponse)
  | ignores (e : PortEvent) (es : List PortEvent) (h : s.inputs = e :: es) : StepKind s (.next (s.withInputs es))

theorem step_kind (s : State) : StepKind s (step s) := by
  rcases hi : s.inputs with _ | ⟨e, es⟩
  · rw [step_nil hi]
    exact .waits hi
  · rw [step_cons hi]
    cases e with
    | rst => exact .rst es hi
    | command w =>
      by_cases hp : s.phase = .idle
      · simp only [onEvent, State.withInputs_phase, hp, if_true, acceptWord, State.withInputs_cfg]
        cases hd : decode s.cfg.swResetAddr w with
        | ok i => exact .runs w es i hp hi hd
        | error e => exact .rejects w es e hp hi hd
      · simp only [onEvent, State.withInputs_phase, hp, if_false]
        exact .ignores _ es hi
    | xferDone o =>
      by_cases hp : s.phase = .busy
      · simp only [onEvent, State.withInputs_phase, hp, if_true]
        exact .transfer o es hp hi
      · simp only [onEvent, State.withInputs_phase, hp, if_false]
        exact .ignores _ es hi
    | rspReady =>
      by_cases hp : s.phase = .resp
      · simp only [onEvent, State.withInputs_phase, hp, if_true]
        exact .takes es hp hi
      · simp only [onEvent, State.withInputs_phase, hp, if_false]
        exact .ignores _ es hi

/-- Everything an `xfer_done` in BUSY can do (R26). -/
inductive TransferEnd (o : XferOutcome) (s : State) : Host.Outcome State Fault Refusal → Prop where
  | noSuch (h : issuesTransfers s.op = false) : TransferEnd o s (.fault .busyWithoutTransfer)
  | failed (h : issuesTransfers s.op = true) (ho : o = .err) :
      TransferEnd o s (.next ((s.settle .err).respond .busError (transferIndex s.step)))
  | mismatch (r0 r1 : Byte) (ho : o = .ok r0 r1) (h : s.op = opInit)
      (ha : echoAccepted s.cfg.finalEchoCheck s.step r0 r1 = false) :
      TransferEnd o s (.next ((s.settle (.ok r0 r1)).respond .commError (transferIndex s.step)))
  | initDone (r0 r1 : Byte) (ho : o = .ok r0 r1) (h : s.op = opInit)
      (ha : echoAccepted s.cfg.finalEchoCheck s.step r0 r1 = true) (ht : s.step = 15) :
      TransferEnd o s (.next ((s.settle (.ok r0 r1)).markInitialized.respond .ok 0x00))
  | initGoesOn (r0 r1 : Byte) (ho : o = .ok r0 r1) (h : s.op = opInit)
      (ha : echoAccepted s.cfg.finalEchoCheck s.step r0 r1 = true) (ht : s.step ≠ 15) :
      TransferEnd o s (.next ((s.settle (.ok r0 r1)).request (s.step + 1) initSeq[s.step + 1].1 initSeq[s.step + 1].2))
  | updateGoesOn (r0 r1 : Byte) (ho : o = .ok r0 r1) (h : s.op = opUpdateAllChannels) (ht : s.step = 0) :
      TransferEnd o s (.next ((s.settle (.ok r0 r1)).request 1 grp1Addr (pack1 s.chEn)))
  | updateDone (r0 r1 : Byte) (ho : o = .ok r0 r1) (h : s.op = opUpdateAllChannels) (ht : s.step ≠ 0) :
      TransferEnd o s (.next ((s.settle (.ok r0 r1)).respond .ok 0x00))
  | calibrationDone (r0 r1 : Byte) (ho : o = .ok r0 r1) (h : s.op = opSetChannelCalibration) :
      TransferEnd o s (.next ((s.settle (.ok r0 r1)).respond .ok 0x00))

theorem onXferDone_end (o : XferOutcome) (s : State) : TransferEnd o s (onXferDone o s) := by
  unfold onXferDone
  cases hi : issuesTransfers s.op
  · simp only [Bool.false_eq_true, if_false]
    exact .noSuch hi
  · simp only [if_true]
    cases o with
    | err => exact .failed hi rfl
    | ok r0 r1 =>
      simp only [continueCommand, State.settle_op]
      by_cases h1 : s.op = opInit
      · simp only [h1, if_true, continueInit, State.settle_cfg, State.settle_step]
        by_cases ha : echoAccepted s.cfg.finalEchoCheck s.step r0 r1 = true
        · simp only [ha, if_true]
          by_cases ht : s.step = 15
          · simp only [ht, if_true]
            exact .initDone r0 r1 rfl h1 ha ht
          · simp only [ht, if_false]
            exact .initGoesOn r0 r1 rfl h1 ha ht
        · simp only [ha]
          exact .mismatch r0 r1 rfl h1 (by simpa using ha)
      · simp only [h1, if_false]
        by_cases h2 : s.op = opUpdateAllChannels
        · simp only [h2, if_true, continueUpdate, State.settle_step]
          by_cases ht : s.step = 0
          · simp only [ht, if_true]
            exact .updateGoesOn r0 r1 rfl h2 ht
          · simp only [ht, if_false]
            exact .updateDone r0 r1 rfl h2 ht
        · simp only [h2, if_false]
          refine .calibrationDone r0 r1 rfl ?_
          simpa [issuesTransfers, h1, h2] using hi

end Sys2Proof.Machine
end

