-- ==== Sys2Proof/Tests/Slice0.lean ====
section
/-! SUPPORT. Tests: expected results are those of spec/95_test_vectors (named in each docstring) or computed by hand
from the rule named; and for every obligation with hypotheses a state and operands that meet them all. -/

namespace Sys2Proof.Tests

open Sys2Proof Sys2Proof.Machine

/-- An idle block with `FINAL_ECHO_CHECK = false`, `SW_RESET_ADDR = 0xC0`, the flag, the vector and the events to come. -/
def block (flag : Bool) (en : ChannelVec) (es : List PortEvent) : State :=
  { State.reset with cfg := ⟨false, 0xC0⟩, initialized := flag, chEn := en, inputs := es }

/-- The same block in BUSY with transfer `t` of the latched command outstanding. -/
def waiting (flag : Bool) (en : ChannelVec) (op : BitVec 4) (t : Fin 16) (a v : Byte) (es : List PortEvent) : State :=
  { block flag en es with phase := .busy, op := op, step := t, tx0 := a, tx1 := v }

/-- The same block in RESP with a response held. -/
def holding (flag : Bool) (en : ChannelVec) (w : Response) (es : List PortEvent) : State :=
  { block flag en es with phase := .resp, rsp := w }

/-- What a vector of the spec fixes: phase, response, flag, vector, transfers sent. -/
def seen : Host.Outcome State Fault Refusal → Option (Phase × Response × Bool × ChannelVec × List Transfer)
  | .next s => some (s.phase, s.rsp, s.initialized, s.chEn, s.transfers)
  | .fault _ => none
  | .refused _ => none

/-- The phase and response only. -/
def answer (o : Host.Outcome State Fault Refusal) : Option (Phase × Response) := (seen o).map fun x => (x.1, x.2.1)

def ok (r0 r1 : Byte) : PortEvent := .xferDone (.ok r0 r1)
def err : PortEvent := .xferDone .err

/-- The replies of the oracle ECHO_SRC (95_test_vectors §0), written out from its table. -/
def echoSrc (k : Fin 16) : Byte × Byte :=
  (#v[(0x00, 0x00), (0x6C, 0xA1), (0x6C, 0xA1), (0xB5, 0x9E), (0xB6, 0x00), (0xB5, 0x9E), (0xB7, 0x00), (0xB5, 0x9E),
    (0xB8, 0x00), (0xB5, 0x9E), (0xB9, 0x00), (0x79, 0xD6), (0x7A, 0x00), (0x79, 0xD6), (0x7B, 0x00), (0x00, 0x00)] :
    Vector (Byte × Byte) 16)[k]

/-! ## WellFormed refuses (R69) -/

/-- R69: 0x19 is the first id that is no name. -/
theorem test_wf_refuses_id_19 : WellFormed 0xC0 (.addrOf 0x19) = false := by decide
/-- R69: with `SW_RESET_ADDR = 0x6C`, id 0x10 (RSV_6C) is no name. -/
theorem test_wf_refuses_shadowed_id : WellFormed 0x6C (.addrOf 0x10) = false := by decide
/-- R64: a channel of 255 can be encoded and is well formed. -/
theorem test_wf_admits_channel_255 : WellFormed 0xC0 (.enableChannel 0xFF) = true := by decide

/-! ## Decoding: words written out field by field from R60 and R61: z1, arg, ch, z0, op -/

theorem test_decode_init : decode 0xC0 0b00000000_00000000_00000000_0000_0001#32 = .ok .init := by decide
theorem test_decode_isInitialized : decode 0xC0 0b00000000_00000000_00000000_0000_0010#32 = .ok .isInitialized := by
  decide
theorem test_decode_enableChannel :
    decode 0xC0 0b00000000_00000000_00001011_0000_0011#32 = .ok (.enableChannel 11) := by decide
theorem test_decode_disableChannel :
    decode 0xC0 0b00000000_00000000_00000100_0000_0100#32 = .ok (.disableChannel 4) := by decide
theorem test_decode_updateAllChannels :
    decode 0xC0 0b00000000_00000000_00000000_0000_0101#32 = .ok .updateAllChannels := by decide
theorem test_decode_setChannelCalibration :
    decode 0xC0 0b00000000_11111111_00001011_0000_0110#32 = .ok (.setChannelCalibration 11 0xFF) := by decide
theorem test_decode_addrOf : decode 0xC0 0b00000000_00001100_00000000_0000_1000#32 = .ok (.addrOf 0x0C) := by decide
theorem test_decode_decodeAddr :
    decode 0xC0 0b00000000_01010011_00000000_0000_1001#32 = .ok (.decodeAddr 0x53) := by decide

/-- V-ILL-2, V-ILL-4: the placeholder opcode and 0xF. -/
theorem test_decode_unassigned :
    decode 0xC0 0x00000007 = .error (.illegalOpcode 7) ∧ decode 0xC0 0x0000000F = .error (.illegalOpcode 15) := by decide
/-- V-ILL-5 to V-ILL-10, V-ILL-13: a set bit in a must-be-zero field. -/
theorem test_decode_mustBeZero :
    decode 0xC0 0x00000011 = .error (.mustBeZero 1) ∧ decode 0xC0 0x01000001 = .error (.mustBeZero 1) ∧
      decode 0xC0 0x00010001 = .error (.mustBeZero 1) ∧ decode 0xC0 0x00010003 = .error (.mustBeZero 3) ∧
      decode 0xC0 0x00000105 = .error (.mustBeZero 5) ∧ decode 0xC0 0x00000108 = .error (.mustBeZero 8) ∧
      decode 0xC0 0x00000101 = .error (.mustBeZero 1) := by decide
/-- V-ILL-11, V-ILL-12; R69 for a reserved id whose address is `SW_RESET_ADDR`. -/
theorem test_decode_notARegister :
    decode 0xC0 0x00190008 = .error (.notARegister 0x19) ∧ decode 0xC0 0x00FF0008 = .error (.notARegister 0xFF) ∧
      decode 0x6C 0x00100008 = .error (.notARegister 0x10) := by decide
/-- The table's numbering: 32 bits, `op` in the low nibble. -/
theorem test_decodeTableWord : decodeTableWord 32 0x00050006 = some (.setChannelCalibration 0 5) := by decide
theorem test_decodeTableWord_refuses : decodeTableWord 32 0x0000000A = none := by decide

/-! ## Assembler form (R72) -/

theorem test_assemble_calibration :
    (assemble "SET_CHANNEL_CALIBRATION" [.num 11, .num 255]).map encode = some 0x00FF0B06 := by decide +kernel
theorem test_assemble_names :
    (assemble "ADDR_OF" [.reg "CAL11"]).map encode = some 0x000B0008 ∧
      (assemble "ADDR_OF" [.reg "STATUS_RESET"]).map encode = some 0x000E0008 ∧
      assemble "ADDR_OF" [.reg "CAL12"] = none ∧ assemble "ENABLE_CHANNEL" [.num 256] = none := by decide +kernel

/-! ## One step per instruction -/

/-- V-INIT-1 = X-9. -/
theorem test_init_success :
    seen (exec .init (block false 0x000 (okAnswers 16 echoSrc))) =
      some (.resp, 0x0000, true, 0x000, handshakeRun 16 echoSrc) := by decide +kernel
/-- V-INIT-2 = X-10: the stuck-high line. -/
theorem test_init_stuck_high :
    seen (step (block false 0x000 [.command 0x00000001, ok 0xFF 0xFF, ok 0xFF 0xFF, ok 0xFF 0xFF])) =
      some (.resp, 0x0102, false, 0x000,
        [⟨0x6C, 0xA1, some (.ok 0xFF 0xFF)⟩, ⟨0x6C, 0xA1, some (.ok 0xFF 0xFF)⟩]) := by decide +kernel
/-- V-ISI-1, V-ISI-3. -/
theorem test_isInitialized :
    answer (step (block false 0x000 [.command 0x00000002])) = some (.resp, 0x0000) ∧
      seen (step (block true 0xFFF [.command 0x00000002])) = some (.resp, 0x0100, true, 0xFFF, []) := by decide
/-- V-EN-2. -/
theorem test_enableChannel_11 :
    seen (step (block true 0x001 [.command 0x00000B03])) = some (.resp, 0x0000, true, 0x801, []) := by decide
/-- V-EN-7, V-EN-6: the channel is checked before the flag. -/
theorem test_enableChannel_checks :
    answer (step (block false 0x000 [.command 0x0000FF03])) = some (.resp, 0x0004) ∧
      answer (step (block false 0x000 [.command 0x00000B03])) = some (.resp, 0x0003) := by decide
/-- V-DIS-1. -/
theorem test_disableChannel_4 :
    seen (step (block true 0x451 [.command 0x00000404])) = some (.resp, 0x0000, true, 0x441, []) := by decide
/-- V-DIS-4, V-DIS-5. -/
theorem test_disableChannel_checks :
    answer (step (block true 0xFFF [.command 0x00000C04])) = some (.resp, 0x0004) ∧
      answer (step (block false 0x000 [.command 0x00000004])) = some (.resp, 0x0003) := by decide
/-- V-UPD-6. -/
theorem test_updateAllChannels :
    seen (step (block true 0x38E [.command 0x00000005, ok 0 0, ok 0 0])) =
      some (.resp, 0x0000, true, 0x38E, [⟨0x56, 0x0E, some (.ok 0 0)⟩, ⟨0x57, 0x0E, some (.ok 0 0)⟩]) := by decide
/-- V-UPD-9. -/
theorem test_updateAllChannels_second_fails :
    seen (step (block true 0x451 [.command 0x00000005, ok 0 0, err])) =
      some (.resp, 0x0101, true, 0x451, [⟨0x56, 0x11, some (.ok 0 0)⟩, ⟨0x57, 0x11, some .err⟩]) := by decide
/-- V-CAL-2. -/
theorem test_setChannelCalibration :
    seen (step (block true 0x000 [.command 0x00FF0B06, ok 0 0])) =
      some (.resp, 0x0000, true, 0x000, [⟨0x53, 0xFF, some (.ok 0 0)⟩]) := by decide
/-- V-CAL-4. -/
theorem test_setChannelCalibration_fails :
    seen (step (block true 0x451 [.command 0x00000006, err])) =
      some (.resp, 0x0001, true, 0x451, [⟨0x48, 0x00, some .err⟩]) := by decide
/-- V-AOF-4, V-AOF-7 (with `SW_RESET_ADDR = 0xC0`). -/
theorem test_addrOf :
    answer (step (block false 0x000 [.command 0x000C0008])) = some (.resp, 0x5600) ∧
      answer (step (block false 0x000 [.command 0x000F0008])) = some (.resp, 0xC000) := by decide
/-- V-AOF-9, V-ILL-11. -/
theorem test_addrOf_last_name :
    answer (step (block false 0x000 [.command 0x00180008])) = some (.resp, 0xB900) ∧
      answer (step (block false 0x000 [.command 0x00190008])) = some (.resp, 0x0006) := by decide
/-- V-DEC-3, V-DEC-4, V-DEC-13, V-DEC-16. -/
theorem test_decodeAddr :
    answer (step (block false 0x000 [.command 0x00530009])) = some (.resp, 0x0B00) ∧
      answer (step (block false 0x000 [.command 0x00540009])) = some (.resp, 0x0005) ∧
      answer (step (block false 0x000 [.command 0x00B90009])) = some (.resp, 0x1800) ∧
      answer (step (block false 0x000 [.command 0x00C00009])) = some (.resp, 0x0F00) := by decide
/-- V-DEC-10: `SW_RESET_ADDR` wins over the reserved register of the same address. -/
theorem test_decodeAddr_shadowed : idOfAddr 0x6C 0x6C = some 0x0F ∧ idOfAddr 0xC0 0x6C = some 0x10 := by decide

/-! ## Ports -/

/-- V-RST-2: `rst` with transfer 3 of INIT outstanding. -/
theorem test_rst_in_busy :
    seen (step (waiting false 0x000 0x1 3 0xB6 0x00 [.rst, ok 0xB5 0x9E])) =
      some (.idle, 0x0000, false, 0x000, [⟨0xB6, 0x00, none⟩]) := by decide
/-- R26, V-INIT-10: an answer in BUSY goes on with the latched command's rule. -/
theorem test_answer_in_busy :
    seen (step (waiting false 0x000 0x1 3 0xB6 0x00 [ok 0xB6 0x00])) =
      some (.resp, 0x0302, false, 0x000, [⟨0xB6, 0x00, some (.ok 0xB6 0x00)⟩]) := by decide
/-- Where the answers end, the command waits with its next transfer driven (R25). -/
theorem test_waits_in_busy :
    (match step (block true 0x451 [.command 0x00000005, ok 0 0]) with
      | .next t => (t.step, t.xferOut)
      | _ => (15, none)) = (1, some (0x57, 0x11)) := by decide

/-! ## Witnesses: a state and operands meeting all the hypotheses of each obligation, at the ends of each range -/

theorem witness_RstFromEveryPhase :
    (block true 0x451 [.rst]).inputs = .rst :: [] ∧ (block true 0x451 [.rst]).phase ≠ .busy ∧
      (holding true 0x451 6 [.rst]).inputs = .rst :: [] ∧ (waiting false 0 1 3 0xB6 0 [.rst]).inputs = .rst :: [] := by decide
theorem witness_RstAbandonsCommand :
    (waiting false 0 1 3 0xB6 0 [.rst, err]).phase = .busy ∧
      (waiting false 0 1 3 0xB6 0 [.rst, err]).inputs = .rst :: .xferDone .err :: [] ∧
      (holding true 0 6 [.rst, err]).phase ≠ .idle ∧
      (holding true 0 6 [.rst, err]).inputs = .rst :: .xferDone .err :: [] := by decide
theorem witness_HandshakeOutputs :
    (block true 0 []).phase = .idle ∧ (waiting true 0 1 0 0 0 []).phase = .busy ∧ (holding true 0 6 []).phase = .resp := by
  decide
theorem witness_CommandOnlyAcceptedInIdle :
    (waiting false 0 1 0 0x6C 0xA1 [.command 2]).phase ≠ .idle ∧ (holding true 0 6 [.command 2]).phase ≠ .idle ∧
      (holding true 0 6 [.command 2]).inputs = .command 2 :: [] := by decide
theorem witness_LateDoneIgnored :
    (block true 0 [err]).phase ≠ .busy ∧ (holding true 0 6 [err]).phase ≠ .busy ∧
      (block true 0 [err]).inputs = .xferDone .err :: [] := by decide
theorem witness_ResponseTaken :
    (holding true 0 6 [.rspReady]).phase = .resp ∧ (holding true 0 6 [.rspReady]).inputs = .rspReady :: [] := by decide
theorem witness_NoTimeout :
    (waiting true 0 1 0 0x6C 0xA1 [.rspReady, .command 2]).phase = .busy ∧
      ∀ e ∈ (waiting true 0 1 0 0x6C 0xA1 [.rspReady, .command 2]).inputs, e = .rspReady ∨ ∃ w, e = .command w := by
  refine ⟨rfl, fun e he => ?_⟩
  rcases List.mem_cons.1 he with h | he
  · exact .inl h
  · exact .inr ⟨2, List.mem_singleton.1 he⟩
theorem witness_StepRunsDecoded :
    (block false 0 [.command 0x00000B03]).phase = .idle ∧
      (block false 0 [.command 0x00000B03]).inputs = .command 0x00000B03 :: [] ∧
      decode (block false 0 [.command 0x00000B03]).cfg.swResetAddr 0x00000B03 = .ok (.enableChannel 11) := by decide
theorem witness_FetchWordRunsNext :
    decode (holding false 0 6 []).cfg.swResetAddr 0x000F0008 = .ok (.addrOf 0x0F) := by decide
theorem witness_IllegalWordAnswered :
    (block true 0 [.command 0x00010003]).phase = .idle ∧
      (block true 0 [.command 0x00010003]).inputs = .command 0x00010003 :: [] ∧
      decode (block true 0 [.command 0x00010003]).cfg.swResetAddr 0x00010003 = .error (.mustBeZero 3) := by decide
theorem witness_DecodeOfEncode :
    WellFormed 0xC0 (.addrOf 0x18) = true ∧ WellFormed 0xC0 (.setChannelCalibration 0xFF 0xFF) = true := by decide
theorem witness_EncodeOfDecode :
    decode 0xC0 0x00180008 = .ok (.addrOf 0x18) ∧ decode 0xC0 0x0000FF04 = .ok (.disableChannel 0xFF) := by decide
theorem witness_DecodeMatchesTable :
    decode 0xC0 0x00FF0009 = .ok (.decodeAddr 0xFF) ∧ (0x00FF0009#32) &&& 0xFF00FFFF#32 = 0x00000009#32 := by decide
theorem witness_UnassignedOpcodesIllegal :
    cmdOp 0xFFFFFFF0 = 0x0 ∧ cmdOp 0x00000007 = 0x7 ∧ 0xA#4 ≤ cmdOp 0x0000000A ∧ 0xA#4 ≤ cmdOp 0xFFFFFFFF := by decide
theorem witness_AddressOfEveryName : (0x6C#8 ≠ 0xC0#8) ∧ (0xB9#8 ≠ 0xC0#8) := by decide
theorem witness_DecodableAddressCount :
    Config.swAdmitted 0x6C = true ∧ Config.swAdmitted 0x47 = true ∧ Config.swAdmitted 0x54 = true := by decide
theorem witness_AddressRoundTrip :
    Config.swAdmitted 0xC0 = true ∧ isName 0xC0 0x18 = true ∧ idOfAddr 0xC0 0xB9 = some 0x18 ∧
      addrOf 0xC0 0x00 = some 0x48 := by decide
theorem witness_AddrOfAnswers :
    isName (block false 0 []).cfg.swResetAddr 0x00 = true ∧ isName (block false 0 []).cfg.swResetAddr 0x18 = true := by
  decide
theorem witness_AddrOfNonName :
    isName (block false 0 []).cfg.swResetAddr 0x19 = false ∧ isName (block false 0 []).cfg.swResetAddr 0xFF = false := by
  decide
theorem witness_DecodeAddrAnswers :
    Config.swAdmitted (block false 0 []).cfg.swResetAddr = true ∧ idOfAddr 0xC0 0x53 = some 0x0B ∧
      idOfAddr 0xC0 0x54 = none := by decide
theorem witness_EnableChannelSetsBit : (11#8).toNat < 12 ∧ (block true 0x451 []).initialized = true := by decide
theorem witness_DisableChannelClearsBit : (0#8).toNat < 12 ∧ (block true 0xFFF []).initialized = true := by decide
theorem witness_MutationsIdempotent :
    (11#8).toNat < 12 ∧ (block true 0x801 []).initialized = true ∧
      (block true 0x801 []).chEn.getLsbD (11#8).toNat = true ∧ (block true 0x801 []).chEn.getLsbD (4#8).toNat = false := by
  decide
theorem witness_InvalidChannelFirst :
    12 ≤ (12#8).toNat ∧ 12 ≤ (255#8).toNat ∧
      (Instr.disableChannel 12 = .enableChannel 12 ∨ Instr.disableChannel 12 = .disableChannel 12 ∨
        Instr.disableChannel 12 = .setChannelCalibration 12 1) := by decide
theorem witness_NotInitializedGate :
    (11#8).toNat < 12 ∧ (block false 0 []).initialized = false ∧
      (Instr.updateAllChannels = .enableChannel 11 ∨ Instr.updateAllChannels = .disableChannel 11 ∨
        Instr.updateAllChannels = .updateAllChannels ∨ Instr.updateAllChannels = .setChannelCalibration 11 1) := by decide
theorem witness_PackerLaws : (0 : Nat) < 6 ∧ (5 : Nat) < 6 := by decide
theorem witness_UpdateFlushesBothGroups :
    (block true 0x451 [ok 0xFF 0xFF, ok 0 0]).initialized = true ∧
      (block true 0x451 [ok 0xFF 0xFF, ok 0 0]).inputs =
        .xferDone (.ok 0xFF 0xFF) :: .xferDone (.ok 0 0) :: [] := by decide
theorem witness_UpdateAbortsOnFailure :
    (block true 0x451 [err]).initialized = true ∧ (block true 0x451 [err]).inputs = .xferDone .err :: [] ∧
      (block true 0x451 [ok 0 0, err]).initialized = true ∧
      (block true 0x451 [ok 0 0, err]).inputs = .xferDone (.ok 0 0) :: .xferDone .err :: [] := by decide
theorem witness_CalibrationAddressMap : (0#8).toNat < 12 ∧ (11#8).toNat < 12 := by decide
theorem witness_CalibrationWritten :
    (11#8).toNat < 12 ∧ (block true 0 [ok 0 0]).initialized = true ∧
      (block true 0 [ok 0 0]).inputs = .xferDone (.ok 0 0) :: [] := by decide
theorem witness_CalibrationFails :
    (0#8).toNat < 12 ∧ (block true 0 [err]).initialized = true ∧ (block true 0 [err]).inputs = .xferDone .err :: [] := by
  decide

/-- ECHO_SRC passes every check with `FINAL_ECHO_CHECK = false`. -/
theorem echoSrc_passes : EchoesUpTo false echoSrc 16 := by
  unfold EchoesUpTo EchoesPrevious
  decide +kernel

theorem witness_InitCompletes :
    (block false 0 (okAnswers 16 echoSrc)).inputs = okAnswers 16 echoSrc ++ [] ∧
      EchoesUpTo (block false 0 (okAnswers 16 echoSrc)).cfg.finalEchoCheck echoSrc 16 :=
  ⟨(List.append_nil _).symm, echoSrc_passes⟩
/-- V-INIT-5 (transfer 0) and V-INIT-7 (transfer 15). -/
theorem witness_InitBusError :
    (block false 0 [err]).inputs = okAnswers 0 echoSrc ++ .xferDone .err :: [] ∧ EchoesUpTo false echoSrc 0 ∧
      (block false 0 (okAnswers 15 echoSrc ++ [err])).inputs = okAnswers 15 echoSrc ++ .xferDone .err :: [] ∧
      EchoesUpTo false echoSrc 15 :=
  ⟨rfl, fun _ h => absurd h (Nat.not_lt_zero _), rfl, fun k h => echoSrc_passes k (Nat.lt_succ_of_lt h)⟩
/-- X-10: every reply FF FF fails at transfer 1. -/
theorem witness_InitCommError :
    (block false 0 [ok 0xFF 0xFF, ok 0xFF 0xFF]).inputs = okAnswers 2 (fun _ => (0xFF, 0xFF)) ++ [] ∧
      EchoesUpTo false (fun _ => (0xFF, 0xFF)) 1 ∧ ¬ EchoesPrevious false (fun _ => (0xFF, 0xFF)) 1 := by
  unfold EchoesUpTo EchoesPrevious
  decide +kernel
/-- V-INIT-3a: with `FINAL_ECHO_CHECK` ECHO_SRC fails at transfer 15. -/
theorem witness_InitCommError_last : EchoesUpTo true echoSrc 15 ∧ ¬ EchoesPrevious true echoSrc 15 := by
  unfold EchoesUpTo EchoesPrevious
  decide +kernel
/-- Nothing, `rst`, a command or `rsp_ready` to come: no answer is next. -/
theorem noAnswerNext_cases (w : Command) (es : List PortEvent) :
    NoAnswerNext [] ∧ NoAnswerNext (.rst :: es) ∧ NoAnswerNext (.command w :: es) ∧ NoAnswerNext (.rspReady :: es) := by
  refine ⟨?_, ?_, ?_, ?_⟩ <;> intro o es' h <;> cases h

/-- Waiting at transfer 0 and at transfer 15, with nothing and with a command to come. -/
theorem witness_InitWaits :
    (block false 0 []).inputs = okAnswers 0 echoSrc ++ [] ∧ NoAnswerNext [] ∧ EchoesUpTo false echoSrc 0 ∧
      (block false 0 (okAnswers 15 echoSrc ++ [.command 2])).inputs = okAnswers 15 echoSrc ++ [.command 2] ∧
      NoAnswerNext [.command 2] ∧ EchoesUpTo false echoSrc 15 :=
  ⟨rfl, (noAnswerNext_cases 2 []).1, fun _ h => absurd h (Nat.not_lt_zero _), rfl, (noAnswerNext_cases 2 []).2.2.1,
    fun k h => echoSrc_passes k (Nat.lt_succ_of_lt h)⟩

/-- `o` is a next state with the property: the premises `exec i s = next t` of the frame statements. -/
def nextHas (o : Host.Outcome State Fault Refusal) (p : State → Bool) : Bool :=
  match o with
  | .next t => p t
  | .fault _ => false
  | .refused _ => false

theorem nextHas_spec {o : Host.Outcome State Fault Refusal} {p : State → Bool} (h : nextHas o p = true) :
    ∃ t, o = .next t ∧ p t = true := by
  cases o with
  | next t => exact ⟨t, rfl, h⟩
  | fault f => exact absurd h Bool.false_ne_true
  | refused r => exact absurd h Bool.false_ne_true

theorem witness_InitSucceedsIff :
    ∃ t, exec .init (block false 0 (okAnswers 16 echoSrc)) = .next t ∧
      decide (t.phase = .resp ∧ t.rsp = 0x0000 ∧ t.initialized = true) = true := nextHas_spec (by decide +kernel)
theorem witness_FailedInitKeepsFlag :
    ∃ t, exec .init (block true 0x002 [err]) = .next t ∧ decide (t.phase = .resp ∧ t.rsp ≠ 0x0000) = true :=
  nextHas_spec (by decide +kernel)
theorem witness_InitFrame :
    ∃ t, exec .init (block true 0x002 []) = .next t ∧ decide (t.phase = .busy) = true := nextHas_spec (by decide +kernel)
theorem witness_FirstTransferDriven :
    NoAnswerNext (block true 0 []).inputs ∧ NoAnswerNext (block true 0 [.rspReady]).inputs ∧
      (block true 0 []).initialized = true ∧ (11#8).toNat < 12 :=
  ⟨(noAnswerNext_cases 2 []).1, (noAnswerNext_cases 2 []).2.2.2, rfl, by decide⟩
theorem witness_UpdateWaitsForSecondGroup :
    (block true 0x451 [ok 0 0, .rst]).initialized = true ∧
      (block true 0x451 [ok 0 0, .rst]).inputs = .xferDone (.ok 0 0) :: [.rst] ∧ NoAnswerNext [.rst] :=
  ⟨rfl, rfl, (noAnswerNext_cases 2 []).2.1⟩
/-- R27 with V-CAL-8's word: op 6, channel 3, value 0x80, in BUSY. -/
theorem witness_LatchHoldsCommand :
    ∃ t, exec (.setChannelCalibration 3 0x80) (block true 0 []) = .next t ∧
      decide (t.phase = .busy ∧ t.op = 0x6 ∧ t.ch = 3 ∧ t.arg = 0x80) = true := nextHas_spec (by decide +kernel)
theorem witness_TransferCounts :
    ∃ t, exec .updateAllChannels (block true 0x451 [ok 0 0, err]) = .next t ∧ decide (t.phase = .resp) = true :=
  nextHas_spec (by decide +kernel)
theorem witness_ResultCatalogue :
    ∃ t, exec (.decodeAddr 0x54) (block false 0 []) = .next t ∧ decide (t.phase = .resp) = true :=
  nextHas_spec (by decide +kernel)
theorem witness_ErrorsArePrecise :
    ∃ t, exec (.enableChannel 12) (block true 0x801 []) = .next t ∧
      decide (t.phase = .resp ∧ t.rsp.toNat % 256 ≠ 0) = true := nextHas_spec (by decide +kernel)

/-- An idle block that has sent nothing meets the invariant, whatever its flag, vector and events. -/
theorem inv_block (flag : Bool) (en : ChannelVec) (es : List PortEvent) : Inv (block flag en es) where
  memory := ⟨.nil, fun _ h => absurd h List.not_mem_nil⟩
  swReset := (by decide : Config.swAdmitted 0xC0 = true)
  outstanding h := by cases h
  gated h := by cases h
  response h := by cases h
  sent _ h := absurd h List.not_mem_nil
  arrived _ h := absurd h List.not_mem_nil
  masks _ h := absurd h List.not_mem_nil

/-- A block that has sent nothing and waits with its command's transfer on the port meets the invariant too. -/
theorem inv_waiting {flag : Bool} {en : ChannelVec} {op : BitVec 4} {k : Fin 16} {a v : Byte} {es : List PortEvent}
    (hp : (waiting flag en op k a v es).planned = some (a, v)) (hg : op ≠ 0x1 → flag = true) :
    Inv (waiting flag en op k a v es) where
  memory := ⟨.nil, fun _ h => absurd h List.not_mem_nil⟩
  swReset := (by decide : Config.swAdmitted 0xC0 = true)
  outstanding _ := hp
  gated _ h := hg h
  response h := by cases h
  sent _ h := absurd h List.not_mem_nil
  arrived _ h := absurd h List.not_mem_nil
  masks _ h := absurd h List.not_mem_nil

/-- An answer comes to INIT at transfers 0, 1 and 15, to UPDATE_ALL_CHANNELS at both, and to SET_CHANNEL_CALIBRATION. -/
theorem witness_AnswerInBusy :
    Inv (waiting false 0 0x1 0 0x6C 0xA1 [err]) ∧ Inv (waiting false 0 0x1 0 0x6C 0xA1 [ok 0 0]) ∧
      Inv (waiting false 0 0x1 1 0x6C 0xA1 [ok 0xFF 0xFF]) ∧ Inv (waiting false 0 0x1 15 0x6B 0x3F [ok 0 0]) ∧
      Inv (waiting true 0x451 0x5 0 0x56 0x11 [ok 0 0]) ∧ Inv (waiting true 0x451 0x5 1 0x57 0x11 [ok 0 0]) ∧
      Inv (waiting true 0 0x6 0 0x48 0x00 [ok 0 0]) :=
  ⟨inv_waiting (by decide) (by decide), inv_waiting (by decide) (by decide), inv_waiting (by decide) (by decide),
    inv_waiting (by decide) (by decide), inv_waiting (by decide) (by decide), inv_waiting (by decide) (by decide),
    inv_waiting (by decide) (by decide)⟩
/-- Its two conditions on the echo: any reply to transfer 0 passes, FF FF to transfer 1 does not, and 00 00 to transfer 15
passes only without `FINAL_ECHO_CHECK`. -/
theorem witness_AnswerInBusy_echo :
    EchoesPrevious false (fun _ => (0, 0)) 0 ∧ ¬ EchoesPrevious false (fun _ => (0xFF, 0xFF)) 1 ∧
      EchoesPrevious false (fun _ => (0, 0)) 15 ∧ ¬ EchoesPrevious true (fun _ => (0, 0)) 15 := by
  unfold EchoesPrevious
  decide +kernel

theorem witness_StepKeepsInv :
    Inv (waiting true 0x451 0x5 1 0x57 0x11 [ok 0 0]) ∧
      ∃ t, step (waiting true 0x451 0x5 1 0x57 0x11 [ok 0 0]) = .next t ∧ decide (t.phase = .resp) = true :=
  ⟨inv_waiting (by decide) (by decide), nextHas_spec (by decide +kernel)⟩
theorem witness_NeverStops : Inv (block true 0x451 [.command 0x00000005]) := inv_block _ _ _
theorem witness_FlagChangesOnlyByInitAndRst :
    (∃ t, step (block false 0 (.command 1 :: okAnswers 16 echoSrc)) = .next t ∧ decide (t.initialized = true) = true) ∧
      (∃ t, step (waiting false 0 0x1 15 0x6B 0x3F [ok 0 0]) = .next t ∧ decide (t.initialized = true) = true) ∧
      ∃ t, step (block true 0 [.rst]) = .next t ∧ decide (t.initialized = false) = true :=
  ⟨nextHas_spec (by decide +kernel), nextHas_spec (by decide +kernel), nextHas_spec (by decide +kernel)⟩
theorem witness_VectorChangesOnlyByChannelCommands :
    (∃ t, step (block true 0x001 [.command 0x00000B03]) = .next t ∧ decide (t.chEn ≠ 0x001) = true) ∧
      ∃ t, step (block true 0x001 [.rst]) = .next t ∧ decide (t.chEn ≠ 0x001) = true :=
  ⟨nextHas_spec (by decide +kernel), nextHas_spec (by decide +kernel)⟩
theorem witness_TracesOnlyGrow :
    ∃ t, step (holding true 0 6 [.rspReady]) = .next t ∧ decide (t.responses = [6]) = true :=
  nextHas_spec (by decide +kernel)
theorem witness_AddressesInClosedSet :
    Inv (block true 0 [.command 0x00050006, ok 0 0]) ∧
      ∃ t, step (block true 0 [.command 0x00050006, ok 0 0]) = .next t ∧
        decide (⟨0x48, 0x05, some (.ok 0 0)⟩ ∈ t.transfers) = true :=
  ⟨inv_block _ _ _, nextHas_spec (by decide +kernel)⟩
/-- From IDLE to transfer 0, and from transfer 3 to transfer 4 of INIT. -/
theorem witness_StepCounterCounts :
    Inv (block true 0x451 [.command 0x00000005]) ∧
      (∃ t, portStep (block true 0x451 [.command 0x00000005]) = .next t ∧
        decide (t.phase = .busy ∧ t.step = 0 ∧ t.op = 0x5) = true) ∧
      Inv (waiting false 0 0x1 3 0xB6 0x00 [ok 0xB5 0x9E]) ∧
      ∃ t, portStep (waiting false 0 0x1 3 0xB6 0x00 [ok 0xB5 0x9E]) = .next t ∧
        decide (t.phase = .busy ∧ t.step = 4) = true :=
  ⟨inv_block _ _ _, nextHas_spec (by decide +kernel), inv_waiting (by decide) (by decide), nextHas_spec (by decide +kernel)⟩
/-- R15 on V-UPD-7: three port steps are the one step of the machine. -/
theorem witness_AtomicAgreesWithPorts :
    seen (portRun 3 (block true 0x451 [.command 0x00000005, ok 0 0, ok 0 0])) =
      seen (step (block true 0x451 [.command 0x00000005, ok 0 0, ok 0 0])) := by decide +kernel
/-- Two idle blocks that differ in the latch, the counter, the transfer bytes and the response register. -/
theorem witness_UnspecifiedNeverObserved :
    SameView (block true 0x451 [.command 2])
      { block true 0x451 [.command 2] with op := 7, ch := 9, arg := 8, step := 3, tx0 := 1, tx1 := 2, rsp := 0xFFFF } where
  cfg := rfl
  initialized := rfl
  chEn := rfl
  phase := rfl
  inputs := rfl
  responses := rfl
  transfers := rfl
  busy h := by cases h
  resp h := by cases h

end Sys2Proof.Tests
end

section
/-! PROOFS for 00_scope: a step in IDLE runs the decoded command (R15, R63), and the atomic transition of R15 is a run
of the event-level machine of R26. -/

namespace Sys2Proof.Machine

/-! ## A command accepted in IDLE -/

theorem acceptWord_ok {s : State} {w : Command} {i : Instr} (hd : decode s.cfg.swResetAddr w = .ok i) :
    acceptWord w s = exec i s := by simp only [acceptWord, hd]

theorem acceptWord_error {s : State} {w : Command} {e : DecodeError} (hd : decode s.cfg.swResetAddr w = .error e) :
    acceptWord w s = .next (rejectWord w s) := by simp only [acceptWord, hd]

theorem acceptWordFirst_ok {s : State} {w : Command} {i : Instr} (hd : decode s.cfg.swResetAddr w = .ok i) :
    acceptWordFirst w s = acceptFirst i s := by simp only [acceptWordFirst, hd]

theorem acceptWordFirst_error {s : State} {w : Command} {e : DecodeError}
    (hd : decode s.cfg.swResetAddr w = .error e) : acceptWordFirst w s = .next (rejectWord w s) := by
  simp only [acceptWordFirst, hd]

section Event
variable {accept : Command → State → Host.Outcome State Fault Refusal} {s : State}

theorem onEvent_command_idle {w : Command} (hp : s.phase = .idle) : onEvent accept (.command w) s = accept w s :=
  if_pos hp

theorem onEvent_command_ignored {w : Command} (hp : s.phase ≠ .idle) : onEvent accept (.command w) s = .next s :=
  if_neg hp

theorem onEvent_xferDone_busy {o : XferOutcome} (hp : s.phase = .busy) :
    onEvent accept (.xferDone o) s = onXferDone o s := if_pos hp

end Event

theorem step_command {s : State} {w : Command} {es : List PortEvent} (hp : s.phase = .idle)
    (h : s.inputs = .command w :: es) : step s = acceptWord w (s.withInputs es) :=
  (step_cons h).trans (onEvent_command_idle hp)

theorem portStep_command {s : State} {w : Command} {es : List PortEvent} (hp : s.phase = .idle)
    (h : s.inputs = .command w :: es) : portStep s = acceptWordFirst w (s.withInputs es) :=
  (portStep_cons h).trans (onEvent_command_idle hp)

/-- Settles O9: the next event is a word, IDLE accepts it, and an accepted word that decodes runs. -/
theorem stepRunsDecoded : Obligations.StepRunsDecoded :=
  fun _ _ _ _ hp hin hd => (step_command hp hin).trans (acceptWord_ok hd)

@[simp] theorem State.withFetchWord_toNat (s : State) (w : Command) : s.withFetchWord 32 w.toNat = s.present w := by
  rw [State.withFetchWord, Nat.mod_eq_of_lt w.isLt, BitVec.ofNat_toNat, BitVec.setWidth_eq]

/-- Settles O10: the presented block is idle with the word first, so O9 applies to it. -/
theorem fetchWordRunsNext : Obligations.FetchWordRunsNext := by
  intro s w i hd
  rw [State.withFetchWord_toNat]
  exact stepRunsDecoded (s.present w) w s.inputs i rfl rfl hd

/-! ## Runs of the event-level machine -/

theorem portRun_succ {n : Nat} {s t : State} (h : portStep s = .next t) : portRun (n + 1) s = portRun n t := by
  simp only [portRun, h]

theorem portRun_one (s : State) : portRun 1 s = portStep s := by
  cases h : portStep s <;> simp only [portRun, h]

/-- Some run of the event-level machine leads from `s` to `t`. -/
def PortReaches (s t : State) : Prop := ∃ n, portRun n s = .next t

theorem PortReaches.refl (s : State) : PortReaches s s := ⟨0, rfl⟩

theorem PortReaches.head {s t u : State} (h : portStep s = .next t) : PortReaches t u → PortReaches s u
  | ⟨n, hn⟩ => ⟨n + 1, (portRun_succ h).trans hn⟩

/-! ## One outstanding transfer: BusWrite against `xfer_done` events -/

/-- An answer to the transfer just requested is one event-level step. -/
theorem portStep_request {t : Fin 16} {a v : Byte} {s : State} {o : XferOutcome} {es : List PortEvent}
    (h : s.inputs = .xferDone o :: es) :
    portStep (s.request t a v) = onXferDone o ((s.request t a v).withInputs es) :=
  (portStep_cons (s := s.request t a v) h).trans (onEvent_xferDone_busy rfl)

theorem portStep_request_ok {t : Fin 16} {a v r0 r1 : Byte} {s : State} {es : List PortEvent}
    (hop : issuesTransfers s.op = true) (h : s.inputs = .xferDone (.ok r0 r1) :: es) :
    portStep (s.request t a v) = .next (continueCommand r0 r1 (afterTransfer t a v (.ok r0 r1) es s)) :=
  (portStep_request h).trans (if_pos hop)

theorem portStep_request_err {t : Fin 16} {a v : Byte} {s : State} {es : List PortEvent}
    (hop : issuesTransfers s.op = true) (h : s.inputs = .xferDone .err :: es) :
    portStep (s.request t a v) = .next ((afterTransfer t a v .err es s).respond .busError (transferIndex t)) :=
  (portStep_request h).trans (if_pos hop)

/-- The event-level machine, from the request, reaches what BusWrite answers, if after a successful transfer it reaches
what BusWrite's caller does with the reply. -/
theorem busWrite_reached {t : Fin 16} {a v : Byte} {k : Byte → Byte → State → State} {s : State}
    (hop : issuesTransfers s.op = true)
    (hk : ∀ r0 r1 es, PortReaches (continueCommand r0 r1 (afterTransfer t a v (.ok r0 r1) es s))
      (k r0 r1 (afterTransfer t a v (.ok r0 r1) es s))) :
    PortReaches (s.request t a v) (busWrite t a v k s) := by
  rcases busWrite_cases t a v k s with ⟨r0, r1, es, hin, hb⟩ | ⟨es, hin, hb⟩ | ⟨-, hb⟩ <;> rw [hb]
  · exact .head (portStep_request_ok hop hin) (hk r0 r1 es)
  · exact .head (portStep_request_err hop hin) (.refl _)
  · exact .refl _

/-! ## How each latched command goes on after a successful transfer -/

theorem continueCommand_init {s : State} (h : s.op = opInit) (r0 r1 : Byte) :
    continueCommand r0 r1 s = continueInit r0 r1 s := if_pos h

theorem continueCommand_update {s : State} (h : s.op = opUpdateAllChannels) (r0 r1 : Byte) :
    continueCommand r0 r1 s = continueUpdate s := by
  rw [continueCommand, h, if_neg (by decide), if_pos rfl]

theorem continueUpdate_first {s : State} (h : s.step = 0) :
    continueUpdate s = s.request 1 grp1Addr (pack1 s.chEn) := if_pos h

theorem continueUpdate_second {s : State} (h : s.step = 1) : continueUpdate s = s.respond .ok 0x00 :=
  if_neg (h ▸ by decide)

theorem continueCommand_calibration {s : State} (h : s.op = opSetChannelCalibration) (r0 r1 : Byte) :
    continueCommand r0 r1 s = s.respond .ok 0x00 := by
  rw [continueCommand, h, if_neg (by decide), if_neg (by decide), complete_eq]

/-- INIT's reply is handled alike by the loop and by the event-level rule, if after an accepted reply the rest of the
loop is reached from what follows the transfer: success after 15, the next request before. -/
theorem continueInit_reached {n : Fin 16} {r0 r1 : Byte} {s u : State} (hop : s.op = opInit) (hn : s.step = n)
    (h : PortReaches
      (if n = 15 then initSucceeded s else s.request (n + 1) initSeq[n + 1].1 initSeq[n + 1].2) u) :
    PortReaches (continueCommand r0 r1 s)
      (if echoAccepted s.cfg.finalEchoCheck n r0 r1 then u else raise .commError (transferIndex n) s) := by
  subst hn
  rw [continueCommand_init hop, continueInit]
  cases echoAccepted s.cfg.finalEchoCheck s.step r0 r1
  · exact .refl _
  · exact h

/-- The event-level machine passes through INIT's loop from the request of any transfer `n`: by induction from the
last transfer down, since after transfer `n` the loop goes on at `n + 1`. -/
theorem initLoop_reached (n : Fin 16) {s : State} (hop : s.op = opInit) :
    PortReaches (s.request n initSeq[n].1 initSeq[n].2) (initLoop ((List.finRange 16).drop n.val) s) := by
  induction n using Fin.reverseInduction generalizing s with
  | last =>
    rw [finRange_drop, initLoop]
    refine busWrite_reached (hop ▸ rfl) fun r0 r1 es => continueInit_reached hop rfl ?_
    exact .refl _
  | cast i ih =>
    rw [finRange_drop, initLoop]
    refine busWrite_reached (hop ▸ rfl) fun r0 r1 es => continueInit_reached hop rfl ?_
    have hne : i.castSucc ≠ 15 := (Fin.castSucc_lt_last i).ne
    simp only [hne, if_false, Fin.coeSucc_eq_succ]
    exact ih hop

/-- UPDATE_ALL_CHANNELS: two transfers, the second with the mask of the vector as it was at acceptance (R120). -/
theorem flushGroups_reached {s : State} (hop : s.op = opUpdateAllChannels) :
    PortReaches (s.request 0 grp0Addr (pack0 s.chEn)) (flushGroups (pack0 s.chEn) (pack1 s.chEn) s) := by
  have hissues : issuesTransfers s.op = true := hop ▸ rfl
  refine busWrite_reached hissues fun r0 r1 es => ?_
  rw [continueCommand_update (by exact hop), continueUpdate_first rfl]
  refine busWrite_reached hissues fun q0 q1 es' => ?_
  rw [continueCommand_update (by exact hop), continueUpdate_second rfl]
  exact .refl _

/-- SET_CHANNEL_CALIBRATION: one transfer. -/
theorem calibrationWrite_reached {s : State} (hop : s.op = opSetChannelCalibration) (a v : Byte) :
    PortReaches (s.request 0 a v) (busWrite 0 a v (fun _ _ s => complete 0x00 s) s) :=
  busWrite_reached (hop ▸ rfl) fun r0 r1 es => by
    rw [continueCommand_calibration (by exact hop)]
    exact .refl _

/-! ## Acceptance: the preconditions pass or raise alike -/

theorem requireInitialized_reached {f g : State → State} {s : State} (h : PortReaches (f s) (g s)) :
    PortReaches (requireInitialized f s) (requireInitialized g s) := by
  cases hi : s.initialized
  · rw [requireInitialized_clear hi, requireInitialized_clear hi]
    exact .refl _
  · rwa [requireInitialized_set hi, requireInitialized_set hi]

theorem requireChannel_reached {ch : Byte} {f g : State → State} {s : State} (h : PortReaches (f s) (g s)) :
    PortReaches (requireChannel ch f s) (requireChannel ch g s) := by
  cases hc : validCh ch
  · rw [requireChannel_invalid hc, requireChannel_invalid hc]
    exact .refl _
  · rwa [requireChannel_valid hc, requireChannel_valid hc]

/-- The event-level machine, once it has accepted a command, reaches what `exec` answers for it (R15). -/
theorem exec_reached (i : Instr) (s : State) :
    ∃ t u, acceptFirst i s = .next t ∧ exec i s = .next u ∧ PortReaches t u := by
  cases i with
  | init => exact ⟨_, _, rfl, rfl, initLoop_reached 0 rfl⟩
  | updateAllChannels => exact ⟨_, _, rfl, rfl, requireInitialized_reached (flushGroups_reached rfl)⟩
  | setChannelCalibration ch value =>
    exact ⟨_, _, rfl, rfl, requireChannel_reached (requireInitialized_reached (calibrationWrite_reached rfl _ _))⟩
  | isInitialized => exact ⟨_, _, rfl, rfl, .refl _⟩
  | enableChannel ch => exact ⟨_, _, rfl, rfl, .refl _⟩
  | disableChannel ch => exact ⟨_, _, rfl, rfl, .refl _⟩
  | addrOf regid => exact ⟨_, _, rfl, rfl, .refl _⟩
  | decodeAddr addr => exact ⟨_, _, rfl, rfl, .refl _⟩

/-- A step that is the same in both machines is a run of one event-level step. -/
theorem exists_portRun_of_portStep_eq {s : State} (h : portStep s = step s) : ∃ n, portRun (n + 1) s = step s :=
  ⟨0, (portRun_one s).trans h⟩

/-- A word presented in IDLE: where it decodes, the command's run follows its acceptance. -/
theorem exists_portRun_of_command {s : State} {w : Command} {es : List PortEvent} (hp : s.phase = .idle)
    (hin : s.inputs = .command w :: es) : ∃ n, portRun (n + 1) s = step s := by
  have hport := portStep_command hp hin
  have hstep := step_command hp hin
  cases hd : decode (s.withInputs es).cfg.swResetAddr w with
  | error e =>
    rw [acceptWordFirst_error hd] at hport
    rw [acceptWord_error hd] at hstep
    exact exists_portRun_of_portStep_eq (hport.trans hstep.symm)
  | ok i =>
    obtain ⟨t, u, ht, hu, n, hn⟩ := exec_reached i (s.withInputs es)
    rw [acceptWordFirst_ok hd, ht] at hport
    rw [acceptWord_ok hd, hu] at hstep
    exact ⟨n, by rw [portRun_succ hport, hn, hstep]⟩

/-- Settles O59: only a word accepted in IDLE makes the two machines differ in one step, and there the event-level
machine goes on to the end of the command's transition. -/
theorem atomicAgreesWithPorts : Obligations.AtomicAgreesWithPorts := by
  intro s
  rcases hin : s.inputs with _ | ⟨e, es⟩
  · exact exists_portRun_of_portStep_eq ((portStep_nil hin).trans (step_nil hin).symm)
  · have hsame (h : onEvent acceptWordFirst e (s.withInputs es) = onEvent acceptWord e (s.withInputs es)) :
        ∃ n, portRun (n + 1) s = step s :=
      exists_portRun_of_portStep_eq ((portStep_cons hin).trans (h.trans (step_cons hin).symm))
    cases e with
    | rst => exact hsame rfl
    | xferDone o => exact hsame rfl
    | rspReady => exact hsame rfl
    | command w =>
      by_cases hp : s.phase = .idle
      · exact exists_portRun_of_command hp hin
      · have hp' : (s.withInputs es).phase ≠ .idle := hp
        exact hsame ((onEvent_command_ignored hp').trans (onEvent_command_ignored hp').symm)

end Sys2Proof.Machine
end

section
/-! PROOFS for 10_state: everything one step can do, the invariant, the flag and the vector (R20 to R34), and what the
spec leaves unobservable (R150). -/

namespace Sys2Proof.Machine

/-! ## The pairs the block sends (R43, R116) -/

/-- A pair the block may put on the transfer port: an address of its reach (R43), and to a group register a mask of six
bits (R116). -/
structure Sendable (a v : Byte) : Prop where
  reach : reachable a = true
  mask : a = grp0Addr ∨ a = grp1Addr → v.extractLsb' 6 2 = 0#2

theorem sendable_initSeq (k : Fin 16) : Sendable initSeq[k].1 initSeq[k].2 := by
  have hreach : ∀ k : Fin 16, reachable initSeq[k].1 = true := by decide
  have hgroup : ∀ k : Fin 16, ¬ (initSeq[k].1 = grp0Addr ∨ initSeq[k].1 = grp1Addr) := by decide
  exact ⟨hreach k, fun h => absurd h (hgroup k)⟩

/-- A six-bit field widened to a byte has zero high bits. -/
theorem extractLsb'_high_zeroExtend (x : BitVec 6) : (x.zeroExtend 8).extractLsb' 6 2 = 0#2 := by
  ext i hi
  simp

theorem sendable_pack0 (e : ChannelVec) : Sendable grp0Addr (pack0 e) :=
  ⟨by decide, fun _ => extractLsb'_high_zeroExtend _⟩

theorem sendable_pack1 (e : ChannelVec) : Sendable grp1Addr (pack1 e) :=
  ⟨by decide, fun _ => extractLsb'_high_zeroExtend _⟩

/-- The calibration addresses of valid channels are 0x48 to 0x53, below the group registers (R121). -/
theorem sendable_calAddr {ch : Byte} (h : ch.toNat < 12) (v : Byte) : Sendable (calAddr ch) v := by
  have hlo : 0x48#8 ≤ calAddr ch := by unfold calAddr calBase; bv_omega
  have hhi : calAddr ch ≤ 0x53#8 := by unfold calAddr calBase; bv_omega
  refine ⟨by simp [reachable, hlo, hhi], fun hg => ?_⟩
  rcases hg with hg | hg <;> rw [hg] at hhi <;> exact absurd hhi (by decide)

/-! ## The transfer that the latch and the counter plan (R25) -/

section Planned
variable {s : State}

theorem planned_init (h : s.op = opInit) : s.planned = some initSeq[s.step] := if_pos h

theorem planned_update_first (h : s.op = opUpdateAllChannels) (ht : s.step = 0) :
    s.planned = some (grp0Addr, pack0 s.chEn) := by
  rw [State.planned, h, if_neg (by decide), if_pos rfl, if_pos ht]

theorem planned_update_second (h : s.op = opUpdateAllChannels) (ht : s.step = 1) :
    s.planned = some (grp1Addr, pack1 s.chEn) := by
  rw [State.planned, h, if_neg (by decide), if_pos rfl, if_neg (ht ▸ by decide), if_pos ht]

theorem planned_calibration (h : s.op = opSetChannelCalibration) (ht : s.step = 0) (hc : s.ch.toNat < 12) :
    s.planned = some (calAddr s.ch, s.arg) := by
  rw [State.planned, h, if_neg (by decide), if_neg (by decide), if_pos rfl, if_pos ⟨ht, (validCh_iff _).2 hc⟩]

/-- Everything that can be planned: the latched command is one that issues transfers, the counter is in its range, and
the pair is the command's. -/
theorem planned_cases {p : Byte × Byte} (h : s.planned = some p) :
    (s.op = opInit ∧ p = initSeq[s.step]) ∨
    (s.op = opUpdateAllChannels ∧ s.step = 0 ∧ p = (grp0Addr, pack0 s.chEn)) ∨
    (s.op = opUpdateAllChannels ∧ s.step = 1 ∧ p = (grp1Addr, pack1 s.chEn)) ∨
    (s.op = opSetChannelCalibration ∧ s.step = 0 ∧ s.ch.toNat < 12 ∧ p = (calAddr s.ch, s.arg)) := by
  unfold State.planned at h
  split at h
  · next hop => exact .inl ⟨hop, (Option.some.inj h).symm⟩
  · split at h
    · next hop =>
      split at h
      · next ht => exact .inr (.inl ⟨hop, ht, (Option.some.inj h).symm⟩)
      · split at h
        · next ht => exact .inr (.inr (.inl ⟨hop, ht, (Option.some.inj h).symm⟩))
        · cases h
    · split at h
      · next hop =>
        split at h
        · next ht => exact .inr (.inr (.inr ⟨hop, ht.1, (validCh_iff _).1 ht.2, (Option.some.inj h).symm⟩))
        · cases h
      · cases h

theorem sendable_of_planned {a v : Byte} (h : s.planned = some (a, v)) : Sendable a v := by
  rcases planned_cases h with ⟨-, hp⟩ | ⟨-, -, hp⟩ | ⟨-, -, hp⟩ | ⟨-, -, hc, hp⟩
  · have hsend := sendable_initSeq s.step
    rwa [← hp] at hsend
  · cases hp
    exact sendable_pack0 _
  · cases hp
    exact sendable_pack1 _
  · cases hp
    exact sendable_calAddr hc _

end Planned

/-! ## What a command has sent before it ends or waits -/

/-- `u` is `s` after some transfers, each of a pair the block may send. -/
inductive SentFrom (s : State) : State → Prop where
  | refl : SentFrom s s
  | transfer {u : State} (t : Fin 16) {a v : Byte} (o : XferOutcome) (es : List PortEvent) (hu : SentFrom s u)
      (h : Sendable a v) : SentFrom s (afterTransfer t a v o es u)

/-- The fields of the block that no transfer changes. -/
structure SameBlock (s u : State) : Prop where
  cfg : u.cfg = s.cfg
  initialized : u.initialized = s.initialized
  chEn : u.chEn = s.chEn
  op : u.op = s.op
  ch : u.ch = s.ch
  arg : u.arg = s.arg

theorem SentFrom.sameBlock {s u : State} (h : SentFrom s u) : SameBlock s u := by
  induction h with
  | refl => exact ⟨rfl, rfl, rfl, rfl, rfl, rfl⟩
  | transfer t o es _ _ ih => exact ⟨ih.cfg, ih.initialized, ih.chEn, ih.op, ih.ch, ih.arg⟩

theorem sentFrom_afterRun (r : Fin 16 → Byte × Byte) (ts : List (Fin 16)) {s u : State} (h : SentFrom s u) :
    SentFrom s (afterRun r ts u) := by
  induction ts generalizing u with
  | nil => exact h
  | cons t ts ih => exact ih (.transfer t _ _ h (sendable_initSeq t))

/-! ## Everything exec can do -/

/-- The state with the fields of the command's word in the latch (R27). -/
def State.latchOf (i : Instr) (s : State) : State :=
  s.latch (cmdOp (encode i)) (cmdCh (encode i)) (cmdArg (encode i))

section LatchOf
variable (s : State) (ch value regid addr : Byte)

@[simp] theorem latchOf_init : s.latchOf .init = s.latch opInit 0 0 := by
  simp [State.latchOf, encode]
@[simp] theorem latchOf_isInitialized : s.latchOf .isInitialized = s.latch opIsInitialized 0 0 := by
  simp [State.latchOf, encode]
@[simp] theorem latchOf_enableChannel : s.latchOf (.enableChannel ch) = s.latch opEnableChannel ch 0 := by
  simp [State.latchOf, encode]
@[simp] theorem latchOf_disableChannel : s.latchOf (.disableChannel ch) = s.latch opDisableChannel ch 0 := by
  simp [State.latchOf, encode]
@[simp] theorem latchOf_updateAllChannels : s.latchOf .updateAllChannels = s.latch opUpdateAllChannels 0 0 := by
  simp [State.latchOf, encode]
@[simp] theorem latchOf_setChannelCalibration :
    s.latchOf (.setChannelCalibration ch value) = s.latch opSetChannelCalibration ch value := by
  simp [State.latchOf, encode]
@[simp] theorem latchOf_addrOf : s.latchOf (.addrOf regid) = s.latch opAddrOf 0 regid := by
  simp [State.latchOf, encode]
@[simp] theorem latchOf_decodeAddr : s.latchOf (.decodeAddr addr) = s.latch opDecodeAddr 0 addr := by
  simp [State.latchOf, encode]

end LatchOf

/-- How an accepted command leaves the block: with a response, in BUSY with its next transfer outstanding, with one bit
of the vector switched, or with the flag set. -/
inductive ExecEnd (i : Instr) (s t : State) : Prop where
  | responds (u : State) (c : ResultCode) (d : Byte) (hu : SentFrom (s.latchOf i) u) (ht : t = u.respond c d)
  | waits (u : State) (n : Fin 16) (a v : Byte) (hu : SentFrom (s.latchOf i) u)
      (hp : (u.request n a v).planned = some (a, v)) (hg : i = .init ∨ s.initialized = true) (ht : t = u.request n a v)
  | switches (ch : Byte) (on : Bool) (hi : i = .enableChannel ch ∨ i = .disableChannel ch) (hch : ch.toNat < 12)
      (hs : s.initialized = true) (ht : t = ((s.latchOf i).putChannel ch on).respond .ok 0x00)
  | initializes (u : State) (hi : i = .init) (hu : SentFrom (s.latchOf i) u)
      (ht : t = u.markInitialized.respond .ok 0x00)

section ExecEnd
variable {s : State}

theorem execEnd_init (s : State) : ExecEnd .init s (initLoop (List.finRange 16) (s.latch opInit 0 0)) := by
  obtain ⟨r, pre, suf, es, -, -, -, hend⟩ := initLoop_cases (List.nodup_finRange 16) (s.latch opInit 0 0)
  have hrun : SentFrom (s.latchOf .init) (afterRun r pre (s.latch opInit 0 0)) := by
    rw [latchOf_init]
    exact sentFrom_afterRun r pre .refl
  cases hend with
  | success h hu => exact .initializes _ rfl hrun hu
  | waits k ks h hes hu =>
    have hop : ((afterRun r pre (s.latch opInit 0 0)).request k initSeq[k].1 initSeq[k].2).op = opInit := by simp
    exact .waits _ k _ _ hrun (planned_init hop) (.inl rfl) hu
  | fails k ks es' h hes hu => exact .responds _ _ _ (.transfer k _ _ hrun (sendable_initSeq k)) hu
  | mismatch k ks q0 q1 es' h hes hq hu => exact .responds _ _ _ (.transfer k _ _ hrun (sendable_initSeq k)) hu

theorem execEnd_update {u : State} (h : UpdateEnd s u) : ExecEnd .updateAllChannels s u := by
  have hlatch : SentFrom (s.latchOf .updateAllChannels) (s.latch opUpdateAllChannels 0 0) := by
    rw [latchOf_updateAllChannels]
    exact .refl
  have hfirst (o : XferOutcome) (es : List PortEvent) := hlatch.transfer 0 o es (sendable_pack0 s.chEn)
  have hsecond (o o' : XferOutcome) (es es' : List PortEvent) :=
    (hfirst o es).transfer 1 o' es' (sendable_pack1 s.chEn)
  cases h with
  | clear h hu => exact .responds _ _ _ hlatch hu
  | waitsFirst h hu => exact .waits _ _ _ _ hlatch (planned_update_first rfl rfl) (.inr h) hu
  | failsFirst h es hu => exact .responds _ _ _ (hfirst _ _) hu
  | waitsSecond h r0 r1 es hu => exact .waits _ _ _ _ (hfirst _ _) (planned_update_second rfl rfl) (.inr h) hu
  | failsSecond h r0 r1 es es' hu => exact .responds _ _ _ (hsecond _ _ _ _) hu
  | success h r0 r1 q0 q1 es es' hu => exact .responds _ _ _ (hsecond _ _ _ _) hu

theorem execEnd_calibration {ch value : Byte} {u : State} (h : CalibrationEnd ch value s u) :
    ExecEnd (.setChannelCalibration ch value) s u := by
  have hlatch : SentFrom (s.latchOf (.setChannelCalibration ch value)) (s.latch opSetChannelCalibration ch value) := by
    rw [latchOf_setChannelCalibration]
    exact .refl
  cases h with
  | invalid h hu => exact .responds _ _ _ hlatch hu
  | clear h hi hu => exact .responds _ _ _ hlatch hu
  | waits h hi hu => exact .waits _ _ _ _ hlatch (planned_calibration rfl rfl h) (.inr hi) hu
  | fails h hi es hu => exact .responds _ _ _ (hlatch.transfer 0 _ es (sendable_calAddr h value)) hu
  | success h hi r0 r1 es hu => exact .responds _ _ _ (hlatch.transfer 0 _ es (sendable_calAddr h value)) hu

theorem execEnd_switch {i : Instr} {ch : Byte} (on : Bool) (hi : i = .enableChannel ch ∨ i = .disableChannel ch) :
    ExecEnd i s (switchChannel ch on (s.latchOf i)) := by
  rcases switchChannel_cases ch on (s.latchOf i) with ⟨-, hu⟩ | ⟨-, -, hu⟩ | ⟨hch, hs, hu⟩
  · exact .responds _ _ _ .refl hu
  · exact .responds _ _ _ .refl hu
  · exact .switches ch on hi hch hs hu

/-- Everything exec can do. -/
theorem exec_end {i : Instr} {t : State} (h : exec i s = .next t) : ExecEnd i s t := by
  cases i with
  | init =>
    cases h
    exact execEnd_init s
  | isInitialized =>
    cases h
    exact .responds _ _ _ .refl (by rw [latchOf_isInitialized]; rfl)
  | enableChannel ch =>
    cases h
    rw [← latchOf_enableChannel]
    exact execEnd_switch true (.inl rfl)
  | disableChannel ch =>
    cases h
    rw [← latchOf_disableChannel]
    exact execEnd_switch false (.inr rfl)
  | updateAllChannels =>
    obtain ⟨u, hu, hend⟩ := exec_updateAllChannels_cases s
    cases hu.symm.trans h
    exact execEnd_update hend
  | setChannelCalibration ch value =>
    obtain ⟨u, hu, hend⟩ := exec_setChannelCalibration_cases ch value s
    cases hu.symm.trans h
    exact execEnd_calibration hend
  | addrOf regid =>
    cases ha : addrOf s.cfg.swResetAddr regid with
    | some a =>
      cases (exec_addrOf_some ha).symm.trans h
      exact .responds _ _ _ .refl (by rw [latchOf_addrOf])
    | none =>
      cases (exec_addrOf_none ha).symm.trans h
      exact .responds _ _ _ .refl (by rw [latchOf_addrOf])
  | decodeAddr addr =>
    cases ha : idOfAddr s.cfg.swResetAddr addr with
    | some id =>
      cases (exec_decodeAddr_some ha).symm.trans h
      exact .responds _ _ _ .refl (by rw [latchOf_decodeAddr])
    | none =>
      cases (exec_decodeAddr_none ha).symm.trans h
      exact .responds _ _ _ .refl (by rw [latchOf_decodeAddr])

end ExecEnd

/-- Everything one step that goes on can be, by its event. -/
inductive StepTo (s t : State) : Prop where
  | waits (h : s.inputs = []) (ht : t = s)
  | resets (es : List PortEvent) (h : s.inputs = .rst :: es) (ht : t = (s.withInputs es).rst)
  | runs (w : Command) (es : List PortEvent) (i : Instr) (hp : s.phase = .idle) (h : s.inputs = .command w :: es)
      (hd : decode s.cfg.swResetAddr w = .ok i) (hend : ExecEnd i (s.withInputs es) t)
  | rejects (w : Command) (es : List PortEvent) (hp : s.phase = .idle) (h : s.inputs = .command w :: es)
      (ht : t = rejectWord w (s.withInputs es))
  | transfer (o : XferOutcome) (es : List PortEvent) (hp : s.phase = .busy) (h : s.inputs = .xferDone o :: es)
      (hend : TransferEnd o (s.withInputs es) (.next t))
  | takes (es : List PortEvent) (hp : s.phase = .resp) (h : s.inputs = .rspReady :: es)
      (ht : t = (s.withInputs es).takeResponse)
  | ignores (e : PortEvent) (es : List PortEvent) (h : s.inputs = e :: es) (ht : t = s.withInputs es)

theorem step_to {s t : State} (hst : step s = .next t) : StepTo s t := by
  have hkind := step_kind s
  rw [hst] at hkind
  generalize ho : Host.Outcome.next t = q at hkind
  cases hkind with
  | waits h => exact .waits h (by cases ho; rfl)
  | rst es h => exact .resets es h (by cases ho; rfl)
  | runs w es i hp h hd => exact .runs w es i hp h hd (exec_end ho.symm)
  | rejects w es e hp h hd => exact .rejects w es hp h (by cases ho; rfl)
  | transfer o es hp h => exact .transfer o es hp h (ho ▸ onXferDone_end o (s.withInputs es))
  | takes es hp h => exact .takes es hp h (by cases ho; rfl)
  | ignores e es h => exact .ignores e es h (by cases ho; rfl)

/-! ## The latch (R27) -/

/-- Settles O46: exec latches the word's fields first, and nothing it does afterwards changes them. -/
theorem latchHoldsCommand : Obligations.LatchHoldsCommand := by
  intro i s t h
  cases exec_end h with
  | responds u c d hu ht => subst ht; exact ⟨hu.sameBlock.op, hu.sameBlock.ch, hu.sameBlock.arg⟩
  | waits u n a v hu hp hg ht => subst ht; exact ⟨hu.sameBlock.op, hu.sameBlock.ch, hu.sameBlock.arg⟩
  | switches ch on hi hch hs ht => subst ht; exact ⟨rfl, rfl, rfl⟩
  | initializes u hi hu ht => subst ht; exact ⟨hu.sameBlock.op, hu.sameBlock.ch, hu.sameBlock.arg⟩

/-! ## The invariant -/

/-- What `Inv` says of the parameters, of the trace and of the chip, whatever the block is doing. -/
structure ChipInv (s : State) : Prop where
  swReset : Config.swAdmitted s.cfg.swResetAddr = true
  sent : ∀ x ∈ s.transfers, reachable x.addr = true
  memory : Memory.wf s.delivered
  arrived : ∀ c ∈ s.delivered, reachable (BitVec.ofNat 8 c.1) = true
  masks : ∀ c ∈ s.delivered, c.1 = 0x56 ∨ c.1 = 0x57 → c.2.extractLsb' 6 2 = 0#2

section ChipInv
variable {s u : State}

theorem Inv.chip (h : Inv s) : ChipInv s := ⟨h.swReset, h.sent, h.memory, h.arrived, h.masks⟩

theorem ChipInv.congr (h : ChipInv s) (hc : u.cfg = s.cfg) (ht : u.transfers = s.transfers)
    (hd : u.delivered = s.delivered) : ChipInv u :=
  ⟨hc ▸ h.swReset, ht ▸ h.sent, hd ▸ h.memory, hd ▸ h.arrived, hd ▸ h.masks⟩

theorem ChipInv.markInitialized (h : ChipInv s) : ChipInv s.markInitialized := h.congr rfl rfl rfl

/-- The outstanding transfer may end, with an outcome or abandoned, if its pair is one the block may send. -/
theorem ChipInv.ended (h : ChipInv s) (hsend : Sendable s.tx0 s.tx1) {o : Option XferOutcome} (hc : u.cfg = s.cfg)
    (ht : u.transfers = s.transfers ++ [⟨s.tx0, s.tx1, o⟩]) (hd : u.delivered = s.delivery o) : ChipInv u where
  swReset := hc ▸ h.swReset
  sent x hx := by
    rw [ht, List.mem_append, List.mem_singleton] at hx
    rcases hx with hx | rfl
    · exact h.sent x hx
    · exact hsend.reach
  memory := hd ▸ State.delivery_wf h.memory o
  arrived c hc := by
    rcases State.mem_delivery (hd ▸ hc) with rfl | hc
    · simpa using hsend.reach
    · exact h.arrived c hc
  masks c hc hg := by
    rcases State.mem_delivery (hd ▸ hc) with rfl | hc
    · exact hsend.mask (hg.imp BitVec.eq_of_toNat_eq BitVec.eq_of_toNat_eq)
    · exact h.masks c hc hg

theorem ChipInv.of_sentFrom (h : ChipInv s) (hu : SentFrom s u) : ChipInv u := by
  induction hu with
  | refl => exact h
  | transfer t o es _ hsend ih => exact (ih.congr rfl rfl rfl : ChipInv (State.request t _ _ _)).ended hsend rfl rfl rfl

/-! ### What the block's own part of `Inv` asks in each phase -/

theorem inv_of_idle (h : ChipInv s) (hp : s.phase = .idle) : Inv s where
  memory := h.memory
  swReset := h.swReset
  outstanding hb := by simp [hp] at hb
  gated hb := by simp [hp] at hb
  response hr := by simp [hp] at hr
  sent := h.sent
  arrived := h.arrived
  masks := h.masks

theorem rspWord_reserved (c : ResultCode) (d : Byte) : (rspWord c d).extractLsb' 4 4 = 0#4 := by
  ext i hi
  have h8 : 4 + i < 8 := by omega
  simp [rspWord, h8]

theorem rspWord_code (c : ResultCode) (d : Byte) : (rspWord c d).extractLsb' 0 4 = resultBits c := by
  ext i hi
  have h8 : i < 8 := by omega
  have h16 : i < 16 := by omega
  simp [rspWord, h8, h16, hi]

theorem resultBits_le (c : ResultCode) : resultBits c ≤ 6#4 := by cases c <;> decide

theorem inv_respond (h : ChipInv s) (c : ResultCode) (d : Byte) : Inv (s.respond c d) where
  memory := h.memory
  swReset := h.swReset
  outstanding hb := by cases hb
  gated hb := by cases hb
  response _ := ⟨rspWord_reserved c d, (rspWord_code c d).symm ▸ resultBits_le c⟩
  sent := h.sent
  arrived := h.arrived
  masks := h.masks

theorem inv_request {n : Fin 16} {a v : Byte} (h : ChipInv s) (hp : (s.request n a v).planned = some (a, v))
    (hg : s.op ≠ opInit → s.initialized = true) : Inv (s.request n a v) where
  memory := h.memory
  swReset := h.swReset
  outstanding _ := hp
  gated _ := hg
  response hr := by cases hr
  sent := h.sent
  arrived := h.arrived
  masks := h.masks

theorem Inv.withInputs (h : Inv s) (es : List PortEvent) : Inv (s.withInputs es) :=
  ⟨h.memory, h.swReset, h.outstanding, h.gated, h.response, h.sent, h.arrived, h.masks⟩

/-! ### Every step keeps it -/

theorem Inv.sendable (h : Inv s) (hp : s.phase = .busy) : Sendable s.tx0 s.tx1 := sendable_of_planned (h.outstanding hp)

theorem Inv.rst (h : Inv s) : Inv s.rst := by
  refine inv_of_idle ?_ rfl
  by_cases hp : s.phase = .busy
  · exact h.chip.ended (h.sendable hp) rfl (if_pos hp) (if_pos hp)
  · exact h.chip.congr rfl (if_neg hp) (if_neg hp)

theorem ExecEnd.inv {i : Instr} (hend : ExecEnd i s u) (h : ChipInv s) : Inv u := by
  have hlatch : ChipInv (s.latchOf i) := h.congr rfl rfl rfl
  cases hend with
  | responds u c d hu ht => exact ht ▸ inv_respond (hlatch.of_sentFrom hu) c d
  | waits u n a v hu hp hg ht =>
    refine ht ▸ inv_request (hlatch.of_sentFrom hu) hp fun hop => hu.sameBlock.initialized.trans ?_
    refine hg.resolve_left fun hi => hop (hu.sameBlock.op.trans ?_)
    simp [hi]
  | switches ch on hi hch hs ht =>
    have hput : ChipInv ((s.latchOf i).putChannel ch on) := h.congr rfl rfl rfl
    exact ht ▸ inv_respond hput .ok 0x00
  | initializes u hi hu ht => exact ht ▸ inv_respond (hlatch.of_sentFrom hu).markInitialized .ok 0x00

theorem TransferEnd.inv {o : XferOutcome} (hend : TransferEnd o s (.next u)) (h : Inv s) (hp : s.phase = .busy) :
    Inv u := by
  have hsettle (o : XferOutcome) : ChipInv (s.settle o) := h.chip.ended (h.sendable hp) rfl rfl rfl
  have hgated (o : XferOutcome) : (s.settle o).op ≠ opInit → (s.settle o).initialized = true := h.gated hp
  cases hend with
  | failed hi ho => exact inv_respond (hsettle _) _ _
  | mismatch r0 r1 ho hop ha => exact inv_respond (hsettle _) _ _
  | initDone r0 r1 ho hop ha ht => exact inv_respond (hsettle _).markInitialized _ _
  | initGoesOn r0 r1 ho hop ha ht => exact inv_request (hsettle _) (planned_init hop) (hgated _)
  | updateGoesOn r0 r1 ho hop ht => exact inv_request (hsettle _) (planned_update_second hop rfl) (hgated _)
  | updateDone r0 r1 ho hop ht => exact inv_respond (hsettle _) _ _
  | calibrationDone r0 r1 ho hop => exact inv_respond (hsettle _) _ _

end ChipInv

/-- Settles O52, case by case over what a step can be: what a command or an answer leaves is a response or a planned
request, after transfers of pairs the block may send. -/
theorem stepKeepsInv : Obligations.StepKeepsInv := by
  intro s t h hst
  cases step_to hst with
  | waits _ ht => exact ht ▸ h
  | resets es _ ht => exact ht ▸ (h.withInputs es).rst
  | runs w es i _ _ _ hend => exact hend.inv (h.withInputs es).chip
  | rejects w es _ _ ht =>
    have hlatch : ChipInv ((s.withInputs es).latch (cmdOp w) (cmdCh w) (cmdArg w)) := h.chip.congr rfl rfl rfl
    exact ht ▸ inv_respond hlatch .illegalCommand 0x00
  | transfer o es hp _ hend => exact hend.inv (h.withInputs es) hp
  | takes es _ _ ht => exact ht ▸ inv_of_idle (h.chip.congr rfl rfl rfl) rfl
  | ignores e es _ ht => exact ht ▸ h.withInputs es

/-- Settles O51: nothing has been sent, and the block is idle. -/
theorem invAtReset : Obligations.InvAtReset :=
  inv_of_idle ⟨Config.swResetAddr_admitted, by simp [State.reset], Memory.wf_nil, by simp [State.reset],
    by simp [State.reset]⟩ rfl

/-! ## What cannot be seen (R150) -/

/-- Two states that agree in everything a command in progress can use or show: all but the phase, the counter, the
transfer bytes, the response register and the model's bookkeeping of the chip. -/
structure Alike (a b : State) : Prop where
  cfg : a.cfg = b.cfg
  initialized : a.initialized = b.initialized
  chEn : a.chEn = b.chEn
  op : a.op = b.op
  ch : a.ch = b.ch
  arg : a.arg = b.arg
  inputs : a.inputs = b.inputs
  responses : a.responses = b.responses
  transfers : a.transfers = b.transfers

section Alike
variable {a b : State}

/-! ### The operations on two states that are alike -/

theorem SameView.latch (h : SameView a b) (op : BitVec 4) (ch arg : Byte) :
    Alike (a.latch op ch arg) (b.latch op ch arg) :=
  ⟨h.cfg, h.initialized, h.chEn, rfl, rfl, rfl, h.inputs, h.responses, h.transfers⟩

theorem Alike.afterTransfer (h : Alike a b) (t : Fin 16) (x v : Byte) (o : XferOutcome) (es : List PortEvent) :
    Alike (afterTransfer t x v o es a) (afterTransfer t x v o es b) :=
  ⟨h.cfg, h.initialized, h.chEn, h.op, h.ch, h.arg, rfl, h.responses, congrArg (· ++ _) h.transfers⟩

theorem Alike.putChannel (h : Alike a b) (ch : Byte) (on : Bool) : Alike (a.putChannel ch on) (b.putChannel ch on) :=
  ⟨h.cfg, h.initialized, congrArg (setChannel · ch on) h.chEn, h.op, h.ch, h.arg, h.inputs, h.responses, h.transfers⟩

theorem Alike.markInitialized (h : Alike a b) : Alike a.markInitialized b.markInitialized :=
  ⟨h.cfg, rfl, h.chEn, h.op, h.ch, h.arg, h.inputs, h.responses, h.transfers⟩

theorem Alike.respond (h : Alike a b) (c : ResultCode) (d : Byte) : SameView (a.respond c d) (b.respond c d) :=
  ⟨h.cfg, h.initialized, h.chEn, rfl, h.inputs, h.responses, h.transfers, (nomatch ·), fun _ => rfl⟩

theorem Alike.request (h : Alike a b) (t : Fin 16) (x v : Byte) : SameView (a.request t x v) (b.request t x v) :=
  ⟨h.cfg, h.initialized, h.chEn, rfl, h.inputs, h.responses, h.transfers, fun _ => ⟨h.op, h.ch, h.arg, rfl, rfl, rfl⟩,
    (nomatch ·)⟩

theorem Alike.busWrite {t : Fin 16} {x v : Byte} {k : Byte → Byte → State → State} (h : Alike a b)
    (hk : ∀ r0 r1 {a b : State}, Alike a b → SameView (k r0 r1 a) (k r0 r1 b)) :
    SameView (busWrite t x v k a) (busWrite t x v k b) := by
  rcases busWrite_cases t x v k a with ⟨r0, r1, es, hin, ha⟩ | ⟨es, hin, ha⟩ | ⟨hin, ha⟩ <;> rw [ha]
  · rw [busWrite_ok (h.inputs ▸ hin)]
    exact hk r0 r1 (h.afterTransfer ..)
  · rw [busWrite_err (h.inputs ▸ hin)]
    exact (h.afterTransfer ..).respond ..
  · rw [busWrite_wait (h.inputs ▸ hin)]
    exact h.request ..

theorem Alike.requireChannel {ch : Byte} {k : State → State} (h : Alike a b) (hk : SameView (k a) (k b)) :
    SameView (requireChannel ch k a) (requireChannel ch k b) := by
  cases hc : validCh ch
  · rw [requireChannel_invalid hc, requireChannel_invalid hc]
    exact h.respond ..
  · rwa [requireChannel_valid hc, requireChannel_valid hc]

theorem Alike.requireInitialized {k : State → State} (h : Alike a b) (hk : SameView (k a) (k b)) :
    SameView (requireInitialized k a) (requireInitialized k b) := by
  cases hi : a.initialized
  · rw [requireInitialized_clear hi, requireInitialized_clear (h.initialized ▸ hi)]
    exact h.respond ..
  · rwa [requireInitialized_set hi, requireInitialized_set (h.initialized ▸ hi)]

/-! ### exec -/

theorem Alike.initLoop (ts : List (Fin 16)) {a b : State} (h : Alike a b) :
    SameView (initLoop ts a) (initLoop ts b) := by
  induction ts generalizing a b with
  | nil => exact h.markInitialized.respond ..
  | cons t ts ih =>
    refine h.busWrite fun r0 r1 a b hab => ?_
    rw [hab.cfg]
    split
    · exact ih hab
    · exact hab.respond ..

theorem Alike.flushGroups (h : Alike a b) (m0 m1 : Byte) : SameView (flushGroups m0 m1 a) (flushGroups m0 m1 b) :=
  h.busWrite fun _ _ _ _ h => h.busWrite fun _ _ _ _ h => h.respond ..

theorem Alike.switchChannel (h : Alike a b) (ch : Byte) (on : Bool) :
    SameView (switchChannel ch on a) (switchChannel ch on b) :=
  h.requireChannel (h.requireInitialized ((h.putChannel ch on).respond ..))

theorem AlikeOutcomes.next {t u : State} (h : SameView t u) : AlikeOutcomes (.next t) (.next u) :=
  .inl ⟨t, u, rfl, rfl, h⟩

/-- exec of a command reads nothing but what its latch and the view hold. -/
theorem SameView.exec (i : Instr) (h : SameView a b) : AlikeOutcomes (exec i a) (exec i b) := by
  cases i with
  | init => exact .next ((h.latch ..).initLoop _)
  | isInitialized =>
    rw [exec_isInitialized, exec_isInitialized, h.initialized]
    exact .next ((h.latch ..).respond ..)
  | enableChannel ch => exact .next ((h.latch ..).switchChannel ch true)
  | disableChannel ch => exact .next ((h.latch ..).switchChannel ch false)
  | updateAllChannels =>
    refine .next ((h.latch ..).requireInitialized ?_)
    rw [State.latch_chEn, State.latch_chEn, h.chEn]
    exact (h.latch ..).flushGroups ..
  | setChannelCalibration ch value =>
    have hl := h.latch opSetChannelCalibration ch value
    exact .next (hl.requireChannel (hl.requireInitialized (hl.busWrite fun _ _ _ _ h => h.respond ..)))
  | addrOf regid =>
    rw [Machine.exec, Machine.exec, execAddrOf, execAddrOf, h.cfg]
    cases addrOf b.cfg.swResetAddr regid <;> exact .next ((h.latch ..).respond ..)
  | decodeAddr addr =>
    rw [Machine.exec, Machine.exec, execDecodeAddr, execDecodeAddr, h.cfg]
    cases idOfAddr b.cfg.swResetAddr addr <;> exact .next ((h.latch ..).respond ..)

/-! ### An answer in BUSY -/

theorem Alike.continueCommand (h : Alike a b) (hs : a.step = b.step) (r0 r1 : Byte) :
    SameView (continueCommand r0 r1 a) (continueCommand r0 r1 b) := by
  unfold Machine.continueCommand continueInit continueUpdate
  simp only [h.op, hs, h.cfg, h.chEn]
  split_ifs
  · exact h.markInitialized.respond ..
  · exact h.request ..
  · exact h.respond ..
  · exact h.request ..
  · exact h.respond ..
  · exact h.respond ..

theorem SameView.onXferDone (o : XferOutcome) (h : SameView a b) (hp : a.phase = .busy) :
    AlikeOutcomes (onXferDone o a) (onXferDone o b) := by
  obtain ⟨hop, hch, harg, hstep, htx0, htx1⟩ := h.busy hp
  have hsettle (o : XferOutcome) : Alike (a.settle o) (b.settle o) :=
    ⟨h.cfg, h.initialized, h.chEn, hop, hch, harg, h.inputs, h.responses, by simp [h.transfers, htx0, htx1]⟩
  unfold Machine.onXferDone
  rw [hop, hstep]
  split
  · cases o with
    | ok r0 r1 => exact .next ((hsettle _).continueCommand hstep r0 r1)
    | err => exact .next ((hsettle _).respond ..)
  · exact .inr (.inl ⟨_, rfl, rfl⟩)

/-! ### One step -/

theorem SameView.withInputs (h : SameView a b) (es : List PortEvent) : SameView (a.withInputs es) (b.withInputs es) :=
  ⟨h.cfg, h.initialized, h.chEn, h.phase, rfl, h.responses, h.transfers, h.busy, h.resp⟩

theorem SameView.rst (h : SameView a b) : SameView a.rst b.rst where
  cfg := h.cfg
  initialized := rfl
  chEn := rfl
  phase := rfl
  inputs := h.inputs
  responses := h.responses
  transfers := by
    by_cases hp : a.phase = .busy
    · obtain ⟨-, -, -, -, htx0, htx1⟩ := h.busy hp
      simp [← h.phase, hp, h.transfers, htx0, htx1]
    · simp [← h.phase, hp, h.transfers]
  busy hb := by cases hb
  resp hr := by cases hr

theorem SameView.takeResponse (h : SameView a b) (hp : a.phase = .resp) :
    SameView a.takeResponse b.takeResponse where
  cfg := h.cfg
  initialized := h.initialized
  chEn := h.chEn
  phase := rfl
  inputs := h.inputs
  responses := by simp [h.responses, h.resp hp]
  transfers := h.transfers
  busy hb := by cases hb
  resp hr := by cases hr

theorem SameView.acceptWord (w : Command) (h : SameView a b) : AlikeOutcomes (acceptWord w a) (acceptWord w b) := by
  cases hd : decode a.cfg.swResetAddr w with
  | ok i =>
    rw [acceptWord_ok hd, acceptWord_ok (h.cfg ▸ hd)]
    exact h.exec i
  | error e =>
    rw [acceptWord_error hd, acceptWord_error (h.cfg ▸ hd)]
    exact .next ((h.latch ..).respond ..)

theorem SameView.onEvent (e : PortEvent) (h : SameView a b) :
    AlikeOutcomes (onEvent Machine.acceptWord e a) (onEvent Machine.acceptWord e b) := by
  cases e with
  | rst => exact .next h.rst
  | command w =>
    simp only [Machine.onEvent, ← h.phase]
    split
    · exact h.acceptWord w
    · exact .next h
  | xferDone o =>
    simp only [Machine.onEvent, ← h.phase]
    split
    · next hp => exact h.onXferDone o hp
    · exact .next h
  | rspReady =>
    simp only [Machine.onEvent, ← h.phase]
    split
    · next hp => exact .next (h.takeResponse hp)
    · exact .next h

theorem SameView.step (h : SameView a b) : AlikeOutcomes (step a) (step b) := by
  cases hin : a.inputs with
  | nil =>
    rw [step_nil hin, step_nil (h.inputs ▸ hin)]
    exact .next h
  | cons e es =>
    rw [step_cons hin, step_cons (h.inputs ▸ hin)]
    exact (h.withInputs es).onEvent e

/-! ### Any number of steps -/

theorem SameView.observe (h : SameView a b) : a.observe = b.observe := by
  simp [State.observe, h.responses, h.transfers, h.initialized, h.chEn]

theorem core_run_refused {n : Nat} {s : State} {r : Refusal} (h : Machine.step s = .refused r) :
    Host.Core.run core (n + 1) s = .refused r := by
  have hcore : core.step s = .refused r := h
  simp only [Host.Core.run, hcore]

theorem SameView.run (n : Nat) {a b : State} (h : SameView a b) :
    AlikeOutcomes (Host.Core.run core n a) (Host.Core.run core n b) := by
  induction n generalizing a b with
  | zero => exact .next h
  | succ n ih =>
    rcases h.step with ⟨t, u, ha, hb, htu⟩ | ⟨f, ha, hb⟩ | ⟨r, ha, hb⟩
    · rw [core_run_next ha, core_run_next hb]
      exact ih htu
    · exact .inr (.inl ⟨f, core_run_fault ha, core_run_fault hb⟩)
    · exact .inr (.inr ⟨r, core_run_refused ha, core_run_refused hb⟩)

theorem AlikeOutcomes.observe {o q : Host.Outcome State Fault Refusal} (h : AlikeOutcomes o q) :
    observeOutcome o = observeOutcome q := by
  rcases h with ⟨t, u, rfl, rfl, htu⟩ | ⟨f, rfl, rfl⟩ | ⟨r, rfl, rfl⟩
  · exact congrArg some htu.observe
  · rfl
  · rfl

end Alike

/-- Settles O60: one step of each keeps the two states alike, since a command latches before it reads the latch, and
so any number of steps does. -/
theorem unspecifiedNeverObserved : Obligations.UnspecifiedNeverObserved :=
  fun _ _ h => ⟨h.observe, h.step, fun n => (h.run n).observe⟩

/-! ## What every answer in BUSY does (R16, R26) -/

/-- The outstanding transfer has ended with outcome `o`: it has joined the trace and been delivered, and the parameters,
the events, the responses, the vector and the latch are as before. -/
structure AnswerEnded (o : XferOutcome) (s t : State) : Prop where
  inputs : t.inputs = s.inputs
  cfg : t.cfg = s.cfg
  responses : t.responses = s.responses
  chEn : t.chEn = s.chEn
  transfers : t.transfers = s.transfers ++ [⟨s.tx0, s.tx1, some o⟩]
  delivered : t.delivered = s.delivery (some o)
  latch : t.op = s.op ∧ t.ch = s.ch ∧ t.arg = s.arg

theorem TransferEnd.ended {o : XferOutcome} {s t : State} (h : TransferEnd o s (.next t)) : AnswerEnded o s t := by
  cases h <;> subst_vars <;> exact ⟨rfl, rfl, rfl, rfl, rfl, rfl, rfl, rfl, rfl⟩

/-! ## The flag and the vector (R20, R22) -/

section Fields
variable {s t : State}

/-- The flag after exec: as it was, or set by an INIT that answers OK. -/
theorem ExecEnd.flag {i : Instr} (h : ExecEnd i s t) :
    t.initialized = s.initialized ∨ t.initialized = true ∧ i = .init ∧ t.phase = .resp ∧ t.rsp = 0x0000 := by
  cases h with
  | responds u c d hu ht => exact .inl (ht ▸ hu.sameBlock.initialized)
  | waits u n a v hu hp hg ht => exact .inl (ht ▸ hu.sameBlock.initialized)
  | switches ch on hi hch hs ht => exact .inl (ht ▸ rfl)
  | initializes u hi hu ht => subst ht; exact .inr ⟨rfl, hi, rfl, rfl⟩

/-- The vector after exec: as it was, or one bit switched by a channel command in an initialized block. -/
theorem ExecEnd.vector {i : Instr} (h : ExecEnd i s t) :
    t.chEn = s.chEn ∨ ∃ ch, (i = .enableChannel ch ∨ i = .disableChannel ch) ∧ s.initialized = true ∧ ch.toNat < 12 ∧
      ∀ k, k ≠ ch.toNat → t.chEn.getLsbD k = s.chEn.getLsbD k := by
  cases h with
  | responds u c d hu ht => exact .inl (ht ▸ hu.sameBlock.chEn)
  | waits u n a v hu hp hg ht => exact .inl (ht ▸ hu.sameBlock.chEn)
  | switches ch on hi hch hs ht => subst ht; exact .inr ⟨ch, hi, hs, hch, fun k hk => setChannel_other hk⟩
  | initializes u hi hu ht => exact .inl (ht ▸ hu.sameBlock.chEn)

/-- The flag after an answer in BUSY: as it was, or set by INIT's last transfer, with OK. -/
theorem TransferEnd.flag {o : XferOutcome} (h : TransferEnd o s (.next t)) :
    t.initialized = s.initialized ∨ t.initialized = true ∧ t.phase = .resp ∧ t.rsp = 0x0000 ∧ s.op = opInit ∧
      s.step = 15 ∧ ∃ r0 r1, o = .ok r0 r1 := by
  cases h with
  | initDone r0 r1 ho hop ha ht => exact .inr ⟨rfl, rfl, rfl, hop, ht, r0, r1, ho⟩
  | failed | mismatch | initGoesOn | updateGoesOn | updateDone | calibrationDone => exact .inl rfl

end Fields

theorem flag_changes_of_same {b c : Bool} {P Q : Prop} (h : c = b) :
    (b = false → c = true → P) ∧ (b = true → c = false → Q) := by
  subst h
  cases c <;> simp

theorem flag_changes_of_set {b c : Bool} {P Q : Prop} (h : c = true) (hP : P) :
    (b = false → c = true → P) ∧ (b = true → c = false → Q) :=
  ⟨fun _ _ => hP, fun _ h0 => absurd (h.symm.trans h0) (by decide)⟩

/-- Settles O54: a step that changes the flag is `rst`, INIT's whole transition, or the answer to its transfer 15. -/
theorem flagChangesOnlyByInitAndRst : Obligations.FlagChangesOnlyByInitAndRst := by
  intro s t hst
  cases step_to hst with
  | waits _ ht => exact flag_changes_of_same (ht ▸ rfl)
  | resets es hin ht =>
    subst ht
    exact ⟨(nomatch ·, ·), fun _ _ => ⟨es, hin⟩⟩
  | runs w es i hp hin hd hend =>
    rcases hend.flag with h | ⟨h1, rfl, hphase, hrsp⟩
    · exact flag_changes_of_same h
    · exact flag_changes_of_set h1 ⟨hphase, hrsp, .inl ⟨hp, w, es, hin, hd⟩⟩
  | rejects w es _ _ ht => exact flag_changes_of_same (ht ▸ rfl)
  | transfer o es hp hin hend =>
    rcases hend.flag with h | ⟨h1, hphase, hrsp, hop, hstep, r0, r1, rfl⟩
    · exact flag_changes_of_same h
    · exact flag_changes_of_set h1 ⟨hphase, hrsp, .inr ⟨hp, hop, hstep, r0, r1, es, hin⟩⟩
  | takes es _ _ ht => exact flag_changes_of_same (ht ▸ rfl)
  | ignores e es _ ht => exact flag_changes_of_same (ht ▸ rfl)

/-- Settles O55: apart from `rst`, only the channel commands switch a bit; every other step leaves the vector. -/
theorem vectorChangesOnlyByChannelCommands : Obligations.VectorChangesOnlyByChannelCommands := by
  intro s t hst hne
  cases step_to hst with
  | resets es hin ht => exact .inl ⟨es, hin⟩
  | runs w es i hp hin hd hend =>
    rcases hend.vector with h | ⟨ch, hi, hs, hch, hbits⟩
    · exact absurd h hne
    · exact .inr ⟨w, es, ch, hp, hin, hs, hch, hi.imp (hd.trans <| congrArg _ ·) (hd.trans <| congrArg _ ·), hbits⟩
  | transfer o es _ _ hend => exact absurd hend.ended.chEn hne
  | waits _ ht => exact absurd (ht ▸ rfl) hne
  | rejects w es _ _ ht => exact absurd (ht ▸ rfl) hne
  | takes es _ _ ht => exact absurd (ht ▸ rfl) hne
  | ignores e es _ ht => exact absurd (ht ▸ rfl) hne

/-! ## The step counter (R25) -/

/-- If a command is in BUSY, its transfer 0 is the one outstanding. -/
def StartsAtZero (s : State) : Prop := s.phase = .busy → s.step = 0

section Event
variable {accept : Command → State → Host.Outcome State Fault Refusal} {s : State}

theorem onEvent_xferDone_ignored {o : XferOutcome} (hp : s.phase ≠ .busy) :
    onEvent accept (.xferDone o) s = .next s := if_neg hp

theorem onEvent_rspReady_resp (hp : s.phase = .resp) : onEvent accept .rspReady s = .next s.takeResponse := if_pos hp

theorem onEvent_rspReady_ignored (hp : s.phase ≠ .resp) : onEvent accept .rspReady s = .next s := if_neg hp

end Event

section StartsAtZero
variable {s t : State}

theorem startsAtZero_respond {c : ResultCode} {d : Byte} : StartsAtZero (s.respond c d) := (nomatch ·)

theorem startsAtZero_request {a v : Byte} : StartsAtZero (s.request 0 a v) := fun _ => rfl

theorem startsAtZero_requireInitialized {k : State → State} (h : StartsAtZero (k s)) :
    StartsAtZero (requireInitialized k s) := by
  cases hi : s.initialized
  · rw [requireInitialized_clear hi]
    exact startsAtZero_respond
  · rwa [requireInitialized_set hi]

theorem startsAtZero_requireChannel {ch : Byte} {k : State → State} (h : StartsAtZero (k s)) :
    StartsAtZero (requireChannel ch k s) := by
  cases hc : validCh ch
  · rw [requireChannel_invalid hc]
    exact startsAtZero_respond
  · rwa [requireChannel_valid hc]

theorem startsAtZero_switchChannel {ch : Byte} {on : Bool} : StartsAtZero (switchChannel ch on s) :=
  startsAtZero_requireChannel (startsAtZero_requireInitialized startsAtZero_respond)

/-- A command accepted at the event level drives its transfer 0 or answers (R26). -/
theorem acceptFirst_startsAtZero {i : Instr} (h : acceptFirst i s = .next t) : StartsAtZero t := by
  cases i with
  | init => cases h; exact startsAtZero_request
  | isInitialized => cases h; exact startsAtZero_respond
  | enableChannel ch => cases h; exact startsAtZero_switchChannel
  | disableChannel ch => cases h; exact startsAtZero_switchChannel
  | updateAllChannels => cases h; exact startsAtZero_requireInitialized startsAtZero_request
  | setChannelCalibration ch value =>
    cases h
    exact startsAtZero_requireChannel (startsAtZero_requireInitialized startsAtZero_request)
  | addrOf regid =>
    cases h
    cases addrOf s.cfg.swResetAddr regid <;> exact startsAtZero_respond
  | decodeAddr addr =>
    cases h
    cases idOfAddr s.cfg.swResetAddr addr <;> exact startsAtZero_respond

theorem acceptWordFirst_startsAtZero {w : Command} (h : acceptWordFirst w s = .next t) : StartsAtZero t := by
  cases hd : decode s.cfg.swResetAddr w with
  | ok i => exact acceptFirst_startsAtZero ((acceptWordFirst_ok hd).symm.trans h)
  | error e =>
    cases (acceptWordFirst_error hd).symm.trans h
    exact startsAtZero_respond

end StartsAtZero

/-- The counter's part of a step from `s` to a state `t` in BUSY: 0 for a new command, one up for an answer, and in the
command's range (R25). -/
def CounterStep (s t : State) : Prop :=
  (s.phase ≠ .busy → t.step = 0) ∧
    (∀ o es, s.phase = .busy → s.inputs = .xferDone o :: es → t.step.val = s.step.val + 1) ∧
    (t.op = 0x5 → t.step.val ≤ 1) ∧ (t.op = 0x6 → t.step.val = 0)

section CounterStep
variable {s t : State}

theorem CounterStep.of_accepted (hp : s.phase ≠ .busy) (h0 : t.step = 0) : CounterStep s t :=
  ⟨fun _ => h0, fun _ _ hb => absurd hb hp, fun _ => by simp [h0], fun _ => by simp [h0]⟩

/-- In BUSY the counter is in the range of the latched command. -/
theorem Inv.counter_range (h : Inv s) (hb : s.phase = .busy) :
    (s.op = 0x5 → s.step.val ≤ 1) ∧ (s.op = 0x6 → s.step.val = 0) := by
  rcases planned_cases (h.outstanding hb) with ⟨hop, -⟩ | ⟨hop, ht, -⟩ | ⟨hop, ht, -⟩ | ⟨hop, ht, -, -⟩ <;>
    simp [*, opInit, opUpdateAllChannels, opSetChannelCalibration]

/-- An event that BUSY does not listen to leaves the counter. -/
theorem CounterStep.of_ignored (h : Inv s) (hb : s.phase = .busy) (hno : NoAnswerNext s.inputs)
    (hop : t.op = s.op) (ht : t.step = s.step) : CounterStep s t := by
  rw [CounterStep, hop, ht]
  exact ⟨fun hp => absurd hb hp, fun o es _ hin => absurd hin (hno o es), h.counter_range hb⟩

/-- An answer that leaves the block in BUSY raises the counter by 1, below 15 for INIT and at 0 for
UPDATE_ALL_CHANNELS. -/
theorem CounterStep.of_answer {o : XferOutcome} {es : List PortEvent} (hp : s.phase = .busy)
    (hend : TransferEnd o (s.withInputs es) (.next t)) (hb : t.phase = .busy) : CounterStep s t := by
  have hnew (hstep : t.step.val = s.step.val + 1) (hrange : t.op = opInit ∨ t.op = opUpdateAllChannels ∧ t.step = 1) :
      CounterStep s t := by
    refine ⟨fun h => absurd hp h, fun _ _ _ _ => hstep, ?_⟩
    rcases hrange with hop | ⟨hop, ht⟩ <;> simp [*, opInit, opUpdateAllChannels]
  cases hend with
  | initGoesOn r0 r1 ho hop ha ht =>
    exact hnew (Fin.val_add_one_of_lt (Fin.lt_last_iff_ne_last.2 ht)) (.inl hop)
  | updateGoesOn r0 r1 ho hop ht =>
    have ht0 : s.step = 0 := ht
    exact hnew (by simp [ht0]) (.inr ⟨hop, rfl⟩)
  | failed | mismatch | initDone | updateDone | calibrationDone => cases hb

/-- Event by event: a new command starts at 0, an answer counts one up, and every other event in BUSY is ignored. -/
theorem portStep_counterStep (hinv : Inv s) (hst : portStep s = .next t) (hb : t.phase = .busy) : CounterStep s t := by
  rcases hin : s.inputs with _ | ⟨e, es⟩
  · cases (portStep_nil hin).symm.trans hst
    exact .of_ignored hinv hb (by simp [NoAnswerNext, hin]) rfl rfl
  · have hev := (portStep_cons hin).symm.trans hst
    cases e with
    | rst => cases hev; cases hb
    | command w =>
      by_cases hp : s.phase = .idle
      · have hacc := (onEvent_command_idle (by exact hp)).symm.trans hev
        exact .of_accepted (by simp [hp]) (acceptWordFirst_startsAtZero hacc hb)
      · cases (onEvent_command_ignored (by exact hp)).symm.trans hev
        exact .of_ignored hinv hb (by simp [NoAnswerNext, hin]) rfl rfl
    | xferDone o =>
      by_cases hp : s.phase = .busy
      · have hdone := (onEvent_xferDone_busy (by exact hp)).symm.trans hev
        exact .of_answer hp (hdone ▸ onXferDone_end o (s.withInputs es)) hb
      · cases (onEvent_xferDone_ignored (by exact hp)).symm.trans hev
        exact absurd hb hp
    | rspReady =>
      by_cases hp : s.phase = .resp
      · cases (onEvent_rspReady_resp (by exact hp)).symm.trans hev
        cases hb
      · cases (onEvent_rspReady_ignored (by exact hp)).symm.trans hev
        exact .of_ignored hinv hb (by simp [NoAnswerNext, hin]) rfl rfl

end CounterStep

/-- Settles O58. -/
theorem stepCounterCounts : Obligations.StepCounterCounts := fun _ _ => portStep_counterStep

/-! ## An answer in BUSY (R26) -/

/-- The response word of R65 as one number. -/
theorem rspWord_eq_answerWord (c : ResultCode) (d : Byte) : rspWord c d = answerWord d (resultBits c).toNat := by
  have hd : d.toNat <<< 8 < 2 ^ 16 := by rw [Nat.shiftLeft_eq]; omega
  have hc : (resultBits c).toNat < 2 ^ 8 := by omega
  apply BitVec.eq_of_toNat_eq
  simp only [rspWord, answerWord, BitVec.truncate_eq_setWidth, BitVec.toNat_or, BitVec.toNat_shiftLeft,
    BitVec.toNat_setWidth, BitVec.toNat_ofNat]
  rw [Nat.mod_eq_of_lt (show d.toNat < 2 ^ 16 by omega), Nat.mod_eq_of_lt hd,
    Nat.mod_eq_of_lt (show (resultBits c).toNat < 2 ^ 16 by omega), ← Nat.shiftLeft_add_eq_or_of_lt hc, Nat.shiftLeft_eq]
  omega

section Answer
variable {s : State} {r0 r1 : Byte}

theorem onXferDone_err (h : issuesTransfers s.op = true) :
    onXferDone .err s = .next ((s.settle .err).respond .busError (transferIndex s.step)) := if_pos h

theorem onXferDone_ok (h : issuesTransfers s.op = true) :
    onXferDone (.ok r0 r1) s = .next (continueCommand r0 r1 (s.settle (.ok r0 r1))) := if_pos h

/-- INIT's echo check of the outstanding transfer, in the words of R92 to R94. -/
theorem echoAccepted_iff (fec : Bool) (k : Fin 16) :
    echoAccepted fec k r0 r1 = true ↔ EchoesPrevious fec (fun _ => (r0, r1)) k :=
  accepted_iff fec (fun _ => (r0, r1)) k

theorem continueInit_mismatch (h : ¬ EchoesPrevious s.cfg.finalEchoCheck (fun _ => (r0, r1)) s.step) :
    continueInit r0 r1 s = s.respond .commError (transferIndex s.step) :=
  if_neg (mt (echoAccepted_iff _ _).1 h)

theorem continueInit_last (h : EchoesPrevious s.cfg.finalEchoCheck (fun _ => (r0, r1)) s.step) (hs : s.step = 15) :
    continueInit r0 r1 s = s.markInitialized.respond .ok 0x00 :=
  (if_pos ((echoAccepted_iff _ _).2 h)).trans (if_pos hs)

theorem continueInit_next (h : EchoesPrevious s.cfg.finalEchoCheck (fun _ => (r0, r1)) s.step) {k : Fin 16}
    (hk : k.val = s.step.val + 1) : continueInit r0 r1 s = s.request k initSeq[k].1 initSeq[k].2 := by
  have hs : s.step ≠ 15 := fun h15 => by simp [h15] at hk; omega
  have hkeq : k = s.step + 1 := by
    rw [Fin.ext_iff, hk, Fin.val_add_one_of_lt (Fin.lt_last_iff_ne_last.2 hs)]
  subst hkeq
  exact (if_pos ((echoAccepted_iff _ _).2 h)).trans (if_neg hs)

/-- The block has a transfer outstanding, so the latched command issues transfers. -/
theorem Inv.issuesTransfers (h : Inv s) (hp : s.phase = .busy) : issuesTransfers s.op = true := by
  rcases planned_cases (h.outstanding hp) with ⟨hop, -⟩ | ⟨hop, -⟩ | ⟨hop, -⟩ | ⟨hop, -⟩ <;> rw [hop] <;> rfl

theorem step_xferDone {o : XferOutcome} {es : List PortEvent} (hp : s.phase = .busy)
    (hin : s.inputs = .xferDone o :: es) : step s = onXferDone o (s.withInputs es) :=
  (step_cons hin).trans (onEvent_xferDone_busy hp)

end Answer

/-- What an answer leaves, whatever the command: its row of R26 apart from the latched command's rule. -/
theorem AnswerEnded.frame {o : XferOutcome} {s t : State} {es : List PortEvent}
    (h : AnswerEnded o (s.withInputs es) t) :
    t.inputs = es ∧ t.cfg = s.cfg ∧ t.responses = s.responses ∧ t.chEn = s.chEn ∧
      t.transfers = s.transfers ++ [⟨s.tx0, s.tx1, some o⟩] ∧ SameBytesOutside s t [s.tx0] ∧
      (t.phase = .busy → t.op = s.op ∧ t.ch = s.ch ∧ t.arg = s.arg) := by
  refine ⟨h.inputs, h.cfg, h.responses, h.chEn, h.transfers, fun a ha => ?_, fun _ => h.latch⟩
  rw [h.delivered]
  exact State.delivery_read_other _ _ (ha s.tx0 (by simp))

/-- Settles O47: a failure ends the command; after a success each latched command goes on by its own rule. -/
theorem answerInBusy : Obligations.AnswerInBusy := by
  intro s o es hinv hp hin
  have hissues : issuesTransfers (s.withInputs es).op = true := hinv.issuesTransfers hp
  have hend := onXferDone_end o (s.withInputs es)
  rw [step_xferDone hp hin]
  cases o with
  | err =>
    rw [onXferDone_err hissues] at hend ⊢
    obtain ⟨hinputs, hcfg, hresponses, hchEn, htransfers, hbytes, hlatch⟩ := hend.ended.frame
    refine ⟨_, rfl, hinputs, hcfg, hresponses, hchEn, htransfers, hbytes, hlatch, fun _ => ?_, nofun⟩
    exact ⟨State.delivery_read_sent (s.withInputs es) (some .err), rfl, rspWord_eq_answerWord .busError _, rfl⟩
  | ok r0 r1 =>
    rw [onXferDone_ok hissues] at hend ⊢
    obtain ⟨hinputs, hcfg, hresponses, hchEn, htransfers, hbytes, hlatch⟩ := hend.ended.frame
    refine ⟨_, rfl, hinputs, hcfg, hresponses, hchEn, htransfers, hbytes, hlatch, nofun, ?_⟩
    rintro _ _ ⟨⟩
    refine ⟨?_, fun hop hne => ?_, fun hop hecho h15 => ?_, fun hop hecho k hk => ?_, fun hop h0 => ?_,
      fun hop h1 => ?_, fun hop => ?_⟩
    · rw [hend.ended.delivered]
      exact Memory.read_write_same _ _ _
    · rw [continueCommand_init (by exact hop), continueInit_mismatch (by exact hne)]
      exact ⟨rfl, rspWord_eq_answerWord .commError _, rfl⟩
    · rw [continueCommand_init (by exact hop), continueInit_last (by exact hecho) (by exact h15)]
      exact ⟨rfl, rfl, rfl⟩
    · rw [continueCommand_init (by exact hop), continueInit_next (by exact hecho) (by exact hk)]
      exact ⟨rfl, rfl, rfl, rfl⟩
    · rw [continueCommand_update (by exact hop), continueUpdate_first (by exact h0)]
      exact ⟨rfl, rfl, rfl, rfl⟩
    · rw [continueCommand_update (by exact hop), continueUpdate_second (by exact h1)]
      exact ⟨rfl, rfl, rfl⟩
    · rw [continueCommand_calibration (by exact hop)]
      exact ⟨rfl, rfl, rfl⟩

/-! ## Waiting for the first answers (R25, R117) -/

/-- A transfer just requested: BUSY with its pair on the port, and nothing else has happened. -/
theorem latch_request_drives (s : State) (op : BitVec 4) (ch arg a v : Byte) (n : Fin 16) :
    ((s.latch op ch arg).request n a v).phase = .busy ∧ ((s.latch op ch arg).request n a v).step = n ∧
      ((s.latch op ch arg).request n a v).xferOut = some (a, v) ∧
      SameFlags s ((s.latch op ch arg).request n a v) ∧ NoTransfer s ((s.latch op ch arg).request n a v) :=
  ⟨rfl, rfl, rfl, ⟨rfl, rfl⟩, rfl, rfl, fun _ => rfl⟩

/-- Settles O44: each of the three commands passes its checks and its first BusWrite waits. -/
theorem firstTransferDriven : Obligations.FirstTransferDriven := by
  intro s ch value hno
  refine ⟨?_, fun hi => ?_, fun hi hch => ?_⟩
  · refine ⟨_, ?_, latch_request_drives s opInit 0 0 0x6C 0xA1 0⟩
    rw [exec_init]
    exact congrArg _ (busWrite_wait hno)
  · refine ⟨_, ?_, latch_request_drives s opUpdateAllChannels 0 0 0x56 (pack0 s.chEn) 0⟩
    rw [exec_updateAllChannels_set hi]
    exact congrArg _ (busWrite_wait hno)
  · refine ⟨_, ?_, latch_request_drives s opSetChannelCalibration ch value (calAddr ch) value 0⟩
    rw [exec_setChannelCalibration_set hch hi, busWrite_wait (by exact hno)]

/-- Settles O45: the first group write is answered, the second waits. -/
theorem updateWaitsForSecondGroup : Obligations.UpdateWaitsForSecondGroup := by
  intro s r0 r1 es hi hin hno
  refine ⟨(afterTransfer 0 grp0Addr (pack0 s.chEn) (.ok r0 r1) es (s.latch opUpdateAllChannels 0 0)).request 1 grp1Addr
    (pack1 s.chEn), ?_, rfl, rfl, rfl, ⟨rfl, rfl⟩, rfl, rfl, ?_, ?_⟩
  · rw [exec_updateAllChannels_set hi, flushGroups, busWrite_ok (by exact hin), busWrite_wait (by exact hno)]
  · exact afterTransfer_read_ok (r0 := r0) (r1 := r1)
  · intro a ha
    exact (afterTransfer_read_other (ha grp0Addr (by decide)) :
      Memory.read (afterTransfer 0 grp0Addr _ (.ok r0 r1) es (s.latch opUpdateAllChannels 0 0)).delivered a = _)

/-! ## Reset, the handshake and the constants (R26, R28 to R31, R34) -/

/-- Settles O1: the fields are State.reset's own, and its `SW_RESET_ADDR` is drawn from the admitted addresses. -/
theorem resetState : Obligations.ResetState :=
  ⟨rfl, rfl, rfl, rfl, rfl, rfl, rfl, rfl, Config.swResetAddr_admitted, rfl⟩

/-- Settles O4: each output is a test of the phase. -/
theorem handshakeOutputs : Obligations.HandshakeOutputs := by
  intro s
  refine ⟨fun hp => ?_, fun hp => ?_, fun hp => ?_⟩ <;>
    simp [State.cmdReady, State.rspValid, State.xferValid, State.rspOut, State.xferOut, hp]

/-- Settles O7: RESP listens to `rsp_ready`, and taking the response is the whole step. -/
theorem responseTaken : Obligations.ResponseTaken :=
  fun _ _ hp hin => (step_cons hin).trans (onEvent_rspReady_resp hp)

/-- Settles O36, pair by pair. -/
theorem handshakeTable : Obligations.HandshakeTable := ⟨rfl, rfl, rfl, rfl, rfl⟩

end Sys2Proof.Machine
end

section
/-! PROOFS for 20_memory: a late answer (R45), the traces (R50, R51), the addresses a transfer can have (R41, R43), and
the number of transfers of a completed command (R55). -/

namespace Sys2Proof.Machine

/-! ## A late answer (R45) -/

/-- Settles O6: outside BUSY the event is dropped. -/
theorem lateDoneIgnored : Obligations.LateDoneIgnored :=
  fun _ _ _ hp hin => (step_cons hin).trans (onEvent_xferDone_ignored hp)

/-! ## The traces (R50, R51) -/

/-- The traces of `t` go on from those of `s`, under the same parameters. -/
def TracesExtend (s t : State) : Prop :=
  s.transfers <+: t.transfers ∧ s.responses <+: t.responses ∧ t.cfg = s.cfg

section TracesExtend
variable {s t : State}

theorem TracesExtend.refl (s : State) : TracesExtend s s := ⟨List.prefix_rfl, List.prefix_rfl, rfl⟩

/-- `rst` appends the transfer it abandons, if one is outstanding (log 11). -/
theorem TracesExtend.rst (s : State) : TracesExtend s s.rst := by
  refine ⟨?_, List.prefix_rfl, rfl⟩
  rw [State.rst_transfers]
  split
  · exact List.prefix_append _ _
  · exact List.prefix_rfl

theorem TracesExtend.takeResponse (s : State) : TracesExtend s s.takeResponse :=
  ⟨List.prefix_rfl, List.prefix_append _ _, rfl⟩

theorem SentFrom.tracesExtend (h : SentFrom s t) : TracesExtend s t := by
  induction h with
  | refl => exact .refl s
  | transfer k o es _ _ ih =>
    obtain ⟨htransfers, hresponses, hcfg⟩ := ih
    exact ⟨htransfers.trans (List.prefix_append _ _), hresponses, hcfg⟩

/-- A command appends the transfers it sends; its response is not taken yet. -/
theorem ExecEnd.tracesExtend {i : Instr} (h : ExecEnd i s t) : TracesExtend s t := by
  cases h with
  | responds u c d hu ht => subst ht; exact hu.tracesExtend
  | waits u n a v hu hp hg ht => subst ht; exact hu.tracesExtend
  | switches ch on hi hch hs ht => subst ht; exact .refl s
  | initializes u hi hu ht => subst ht; exact hu.tracesExtend

theorem AnswerEnded.tracesExtend {o : XferOutcome} (h : AnswerEnded o s t) : TracesExtend s t :=
  ⟨h.transfers ▸ List.prefix_append _ _, h.responses ▸ List.prefix_rfl, h.cfg⟩

end TracesExtend

/-- Settles O56: a transfer that ends and a response that is taken are appended; nothing else touches the traces. -/
theorem tracesOnlyGrow : Obligations.TracesOnlyGrow := by
  intro s t hst
  cases step_to hst with
  | waits _ ht => subst ht; exact TracesExtend.refl t
  | resets es _ ht => subst ht; exact TracesExtend.rst (s.withInputs es)
  | runs w es i _ _ _ hend => exact hend.tracesExtend
  | rejects w es _ _ ht => subst ht; exact TracesExtend.refl s
  | transfer o es _ _ hend => exact hend.ended.tracesExtend
  | takes es _ _ ht => subst ht; exact TracesExtend.takeResponse (s.withInputs es)
  | ignores e es _ ht => subst ht; exact TracesExtend.refl s

/-! ## The addresses a transfer can have (R41, R43) -/

section Reach
variable {sw a : Byte}

/-- The reach of R43, by register group. -/
theorem reachable_cases (h : reachable a = true) :
    (0x48#8 ≤ a ∧ a ≤ 0x53#8) ∨ a = grp0Addr ∨ a = grp1Addr ∨ a = statusResetAddr ∨ a ∈ rsvAddr := by
  simp only [reachable, Bool.or_eq_true, Bool.and_eq_true, decide_eq_true_eq, List.contains_iff_mem, List.mem_cons,
    List.not_mem_nil, or_false] at h
  simp only [rsvAddr, grp0Addr, grp1Addr, statusResetAddr, List.mem_cons, List.not_mem_nil, or_false]
  tauto

/-- Every address of the reach decodes (R81), whatever the software-reset address. -/
theorem idOfAddr_isSome_of_reachable (h : reachable a = true) : (idOfAddr sw a).isSome = true := by
  unfold idOfAddr
  split_ifs with hcal h0 h1 hst hsw
  · rfl
  · rfl
  · rfl
  · rfl
  · rfl
  · rw [Option.isSome_map]
    have hrsv : a ∈ rsvAddr :=
      ((((reachable_cases h).resolve_left hcal).resolve_left h0).resolve_left h1).resolve_left hst
    simpa using hrsv

/-- R12 keeps the software-reset register off every address of the reach but the reserved ones. -/
theorem mem_rsvAddr_of_reachable (h : reachable a = true) (hadm : Config.swAdmitted a = true) : a ∈ rsvAddr := by
  simp only [Config.swAdmitted, Bool.and_eq_true, Bool.not_eq_true', bne_iff_ne, ne_eq, Bool.and_eq_false_iff,
    decide_eq_false_iff_not] at hadm
  obtain ⟨⟨⟨hcal, h0⟩, h1⟩, hst⟩ := hadm
  exact ((((reachable_cases h).resolve_left (not_and_or.2 hcal)).resolve_left h0).resolve_left h1).resolve_left hst

end Reach

/-- Settles O57: the invariant survives the step, so every transfer's address is in the reach of R43. -/
theorem addressesInClosedSet : Obligations.AddressesInClosedSet := by
  intro s t hinv hst x hx
  have hreach : reachable x.addr = true := (stepKeepsInv s t hinv hst).sent x hx
  exact ⟨idOfAddr_isSome_of_reachable hreach, fun hsw => mem_rsvAddr_of_reachable hreach (hsw ▸ hinv.swReset)⟩

/-! ## The number of transfers of a completed command (R55) -/

section Count
variable {s u : State}

theorem rspWord_toNat (c : ResultCode) (d : Byte) :
    (rspWord c d).toNat = d.toNat * 256 + (resultBits c).toNat := by
  rw [rspWord_eq_answerWord, answerWord, BitVec.toNat_ofNat]
  omega

theorem transferIndex_toNat (k : Fin 16) : (transferIndex k).toNat = k.val := by
  rw [transferIndex, BitVec.toNat_ofNat]
  omega

/-- An error response is not the word of OK with data 0. -/
theorem rspWord_ne_zero {c : ResultCode} (hc : resultBits c ≠ 0) (d : Byte) : rspWord c d ≠ 0x0000 := by
  intro h
  have hcode := rspWord_code c d
  rw [h] at hcode
  exact hc (hcode.symm.trans (by decide))

/-- The transfers of the handshake before transfer `k` are `k` in number. -/
theorem length_of_finRange_eq_append {pre ks : List (Fin 16)} {k : Fin 16} (h : List.finRange 16 = pre ++ k :: ks) :
    pre.length = k.val := by
  have hget : (List.finRange 16)[pre.length]? = some k := by simp [h]
  obtain ⟨_, hk⟩ := List.getElem?_eq_some_iff.1 hget
  rw [List.getElem_finRange] at hk
  exact congrArg Fin.val hk

/-- INIT stopped by an error at transfer `k` has sent `k + 1` transfers, and the data byte of its response is `k`. -/
theorem initCount_of_error {r : Fin 16 → Byte × Byte} {pre ks : List (Fin 16)} {k : Fin 16} {c : ResultCode}
    (hts : List.finRange 16 = pre ++ k :: ks) (hc : resultBits c ≠ 0) {a v : Byte} {o : XferOutcome}
    {es : List PortEvent} (hu : u = (afterTransfer k a v o es (afterRun r pre s)).respond c (transferIndex k)) :
    u.transfers.length = s.transfers.length + if u.rsp = 0x0000 then 16 else u.rsp.toNat / 256 + 1 := by
  subst hu
  have hdata : (rspWord c (transferIndex k)).toNat / 256 = pre.length := by
    rw [rspWord_toNat, transferIndex_toNat, length_of_finRange_eq_append hts]
    omega
  rw [State.respond_rsp, if_neg (rspWord_ne_zero hc _), hdata]
  simp

theorem LoopEnd.transferCount {r : Fin 16 → Byte × Byte} {pre suf : List (Fin 16)} {es : List PortEvent}
    (h : LoopEnd r pre suf es s u) (hts : List.finRange 16 = pre ++ suf) (hp : u.phase = .resp) :
    u.transfers.length = s.transfers.length + if u.rsp = 0x0000 then 16 else u.rsp.toNat / 256 + 1 := by
  cases h with
  | success hsuf hu =>
    have hlen : pre.length = 16 := by simpa [hsuf] using (congrArg List.length hts).symm
    subst hu
    have hrsp : (initSucceeded (afterRun r pre s)).rsp = 0x0000 := rfl
    rw [if_pos hrsp]
    simp [hlen]
  | waits k ks _ _ hu =>
    subst hu
    cases hp
  | fails k ks es' hsuf _ hu => exact initCount_of_error (hsuf ▸ hts) (by decide) hu
  | mismatch k ks q0 q1 es' hsuf _ _ hu => exact initCount_of_error (hsuf ▸ hts) (by decide) hu

theorem UpdateEnd.transferCount (h : UpdateEnd s u) (hp : u.phase = .resp) :
    u.transfers.length =
      s.transfers.length + if u.rsp = 0x0003 then 0 else if u.rsp = 0x0001 then 1 else 2 := by
  cases h with
  | clear _ hu => subst hu; rfl
  | waitsFirst _ hu => subst hu; cases hp
  | failsFirst _ es hu => subst hu; exact List.length_append
  | waitsSecond _ r0 r1 es hu => subst hu; cases hp
  | failsSecond _ r0 r1 es es' hu => subst hu; exact List.length_append.trans (congrArg (· + 1) List.length_append)
  | success _ r0 r1 q0 q1 es es' hu => subst hu; exact List.length_append.trans (congrArg (· + 1) List.length_append)

theorem CalibrationEnd.transferCount {ch value : Byte} (h : CalibrationEnd ch value s u) (hp : u.phase = .resp) :
    u.transfers.length = s.transfers.length + if u.rsp = 0x0003 ∨ u.rsp = 0x0004 then 0 else 1 := by
  cases h with
  | invalid _ hu => subst hu; rfl
  | clear _ _ hu => subst hu; rfl
  | waits _ _ hu => subst hu; cases hp
  | fails _ _ es hu => subst hu; exact List.length_append
  | success _ _ r0 r1 es hu => subst hu; exact List.length_append

theorem switchChannel_transfers (ch : Byte) (on : Bool) (s : State) :
    (switchChannel ch on s).transfers = s.transfers := by
  rcases switchChannel_cases ch on s with ⟨-, h⟩ | ⟨-, -, h⟩ | ⟨-, -, h⟩ <;> rw [h] <;> rfl

theorem exec_addrOf_transfers {regid : Byte} (h : exec (.addrOf regid) s = .next u) : u.transfers = s.transfers := by
  cases ha : addrOf s.cfg.swResetAddr regid with
  | some a => cases (exec_addrOf_some ha).symm.trans h; rfl
  | none => cases (exec_addrOf_none ha).symm.trans h; rfl

theorem exec_decodeAddr_transfers {addr : Byte} (h : exec (.decodeAddr addr) s = .next u) :
    u.transfers = s.transfers := by
  cases ha : idOfAddr s.cfg.swResetAddr addr with
  | some id => cases (exec_decodeAddr_some ha).symm.trans h; rfl
  | none => cases (exec_decodeAddr_none ha).symm.trans h; rfl

end Count

/-- Settles O48, command by command: the response tells at which transfer the command ended. -/
theorem transferCounts : Obligations.TransferCounts := by
  intro i s t h hp
  cases i with
  | init =>
    cases h
    obtain ⟨r, pre, suf, es, hts, -, -, hend⟩ := initLoop_cases (List.nodup_finRange 16) (s.latch opInit 0 0)
    exact ⟨_, hend.transferCount hts hp, rfl⟩
  | updateAllChannels =>
    obtain ⟨u, hu, hend⟩ := exec_updateAllChannels_cases s
    cases hu.symm.trans h
    exact ⟨_, hend.transferCount hp, rfl⟩
  | setChannelCalibration ch value =>
    obtain ⟨u, hu, hend⟩ := exec_setChannelCalibration_cases ch value s
    cases hu.symm.trans h
    exact ⟨_, hend.transferCount hp, rfl⟩
  | isInitialized => cases h; exact ⟨0, rfl, rfl⟩
  | enableChannel ch => cases h; exact ⟨0, congrArg List.length (switchChannel_transfers ch true _), rfl⟩
  | disableChannel ch => cases h; exact ⟨0, congrArg List.length (switchChannel_transfers ch false _), rfl⟩
  | addrOf regid => exact ⟨0, congrArg List.length (exec_addrOf_transfers h), rfl⟩
  | decodeAddr addr => exact ⟨0, congrArg List.length (exec_decodeAddr_transfers h), rfl⟩

end Sys2Proof.Machine
end

section
/-! PROOFS for 30_encoding: decode and encode agree (R60 to R64), the legal words are those of the opcode table (R62,
R73), the register names (R69), and that no step stops (R73, R140). -/

namespace Sys2Proof

/-! ## A word and its fields (R60) -/

section Fields
variable {w m p : Command} {op : BitVec 4} {ch arg : Byte}

/-- A word is packed from exactly its own fields, and only if its must-be-zero fields are zero. -/
theorem packCommand_eq_iff :
    packCommand op ch arg = w ↔ cmdOp w = op ∧ cmdZ0 w = 0#4 ∧ cmdCh w = ch ∧ cmdArg w = arg ∧ cmdZ1 w = 0#8 := by
  constructor
  · rintro rfl
    simp
  · rintro ⟨rfl, h0, rfl, rfl, h1⟩
    exact packCommand_fields h0 h1

/-- A masked word matches a pattern field by field. -/
theorem fields_of_and_eq (h : w &&& m = p) :
    cmdOp w &&& cmdOp m = cmdOp p ∧ cmdZ0 w &&& cmdZ0 m = cmdZ0 p ∧ cmdCh w &&& cmdCh m = cmdCh p ∧
      cmdArg w &&& cmdArg m = cmdArg p ∧ cmdZ1 w &&& cmdZ1 m = cmdZ1 p := by
  subst h
  exact ⟨BitVec.extractLsb'_and.symm, BitVec.extractLsb'_and.symm, BitVec.extractLsb'_and.symm,
    BitVec.extractLsb'_and.symm, BitVec.extractLsb'_and.symm⟩

end Fields

/-! ## Decode and encode (R61 to R64, R69) -/

theorem ifZero_eq_ok_iff {op : BitVec 4} {z : Bool} {i j : Instr} : ifZero op z i = .ok j ↔ z = true ∧ i = j := by
  cases z <;> simp [ifZero]

/-- Settles O12, command by command: the word's fields are the ones its row of the decoder asks for, and ADDR_OF's
operand is a name because the command is well formed. -/
theorem decodeOfEncode : Obligations.DecodeOfEncode := by
  intro sw i hwf
  cases i with
  | init => simp [encode, decode, ifZero, opInit]
  | isInitialized => simp [encode, decode, ifZero, opIsInitialized]
  | enableChannel ch => simp [encode, decode, ifZero, opEnableChannel]
  | disableChannel ch => simp [encode, decode, ifZero, opDisableChannel]
  | updateAllChannels => simp [encode, decode, ifZero, opUpdateAllChannels]
  | setChannelCalibration ch value => simp [encode, decode, ifZero, opSetChannelCalibration]
  | addrOf regid =>
    have hname : isName sw regid = true := hwf
    simp [encode, decode, opAddrOf, hname]
  | decodeAddr addr => simp [encode, decode, ifZero, opDecodeAddr]

/-- Settles O13, row by row of the decoder: the fields it has checked are all of the word but the operands. -/
theorem encodeOfDecode : Obligations.EncodeOfDecode := by
  intro sw w i h
  unfold decode at h
  split at h
  case h_9 => cases h
  case h_7 hop =>
    dsimp only at h
    split_ifs at h with hz hname
    cases h
    simp only [Bool.and_eq_true, beq_iff_eq] at hz
    exact ⟨packCommand_eq_iff.2 ⟨hop, by simp [hz]⟩, hname⟩
  all_goals
    next hop =>
    obtain ⟨hz, rfl⟩ := ifZero_eq_ok_iff.1 h
    simp only [Bool.and_eq_true, beq_iff_eq] at hz
    exact ⟨packCommand_eq_iff.2 ⟨hop, by simp [hz]⟩, rfl⟩

theorem decode_eq_ok_iff {sw : Byte} {w : Command} {i : Instr} :
    decode sw w = .ok i ↔ encode i = w ∧ WellFormed sw i = true := by
  constructor
  · exact encodeOfDecode sw w i
  · rintro ⟨rfl, hwf⟩
    exact decodeOfEncode sw i hwf

/-- R69's restriction, read from the command's word. -/
theorem wellFormed_iff {sw : Byte} {i : Instr} :
    WellFormed sw i = true ↔ (cmdOp (encode i) = 0x8 → isName sw (cmdArg (encode i)) = true) := by
  cases i <;> simp [WellFormed, encode, opInit, opIsInitialized, opEnableChannel, opDisableChannel,
    opUpdateAllChannels, opSetChannelCalibration, opAddrOf, opDecodeAddr]

/-! ## The opcode table (R62) -/

/-- The command's word matches its row of the table. -/
theorem encode_matches_row (i : Instr) : Laws.EncodeMatchesRow.Statement i := by
  cases i with
  | init => exact Laws.EncodeMatchesRow.init
  | isInitialized => exact Laws.EncodeMatchesRow.isInitialized
  | enableChannel ch => exact Laws.EncodeMatchesRow.enableChannel ch
  | disableChannel ch => exact Laws.EncodeMatchesRow.disableChannel ch
  | updateAllChannels => exact Laws.EncodeMatchesRow.updateAllChannels
  | setChannelCalibration ch value => exact Laws.EncodeMatchesRow.setChannelCalibration ch value
  | addrOf regid => exact Laws.EncodeMatchesRow.addrOf regid
  | decodeAddr addr => exact Laws.EncodeMatchesRow.decodeAddr addr

section Table
variable {w : Command} {r q : OpcodeRow}

/-- Every row fixes the opcode and the two must-be-zero fields. -/
theorem row_fixes_fields : ∀ r ∈ opcodeTable,
    cmdOp r.mask = BitVec.allOnes 4 ∧ cmdZ0 r.mask = BitVec.allOnes 4 ∧ cmdZ1 r.mask = BitVec.allOnes 8 ∧
      cmdZ0 r.pattern = 0#4 ∧ cmdZ1 r.pattern = 0#8 := by decide

theorem fields_of_row (hr : r ∈ opcodeTable) (h : w &&& r.mask = r.pattern) :
    cmdOp w = cmdOp r.pattern ∧ cmdZ0 w = 0#4 ∧ cmdZ1 w = 0#8 := by
  obtain ⟨mop, m0, m1, p0, p1⟩ := row_fixes_fields r hr
  obtain ⟨hop, h0, -, -, h1⟩ := fields_of_and_eq h
  rw [mop, BitVec.and_allOnes] at hop
  rw [m0, p0, BitVec.and_allOnes] at h0
  rw [m1, p1, BitVec.and_allOnes] at h1
  exact ⟨hop, h0, h1⟩

theorem row_ch_zero (h : w &&& r.mask = r.pattern) (hm : cmdCh r.mask = BitVec.allOnes 8)
    (hp : cmdCh r.pattern = 0#8) : cmdCh w = 0#8 := by
  obtain ⟨-, -, hch, -, -⟩ := fields_of_and_eq h
  rwa [hm, hp, BitVec.and_allOnes] at hch

theorem row_arg_zero (h : w &&& r.mask = r.pattern) (hm : cmdArg r.mask = BitVec.allOnes 8)
    (hp : cmdArg r.pattern = 0#8) : cmdArg w = 0#8 := by
  obtain ⟨-, -, -, harg, -⟩ := fields_of_and_eq h
  rwa [hm, hp, BitVec.and_allOnes] at harg

/-- The rows have different opcodes, so a word matches one row at most. -/
theorem row_unique (hr : r ∈ opcodeTable) (hq : q ∈ opcodeTable) (hwr : w &&& r.mask = r.pattern)
    (hwq : w &&& q.mask = q.pattern) : r = q := by
  have hnodup : (opcodeTable.map fun r => cmdOp r.pattern).Nodup := by decide
  exact List.inj_on_of_nodup_map hnodup hr hq ((fields_of_row hr hwr).1.symm.trans (fields_of_row hq hwq).1)

/-- A word that matches a row is a command's: its operands are the fields the row leaves open. -/
theorem exists_encode_of_row (hr : r ∈ opcodeTable) (h : w &&& r.mask = r.pattern) : ∃ i, encode i = w := by
  obtain ⟨hop, h0, h1⟩ := fields_of_row hr h
  simp only [opcodeTable, List.mem_cons, List.not_mem_nil, or_false] at hr
  rcases hr with rfl | rfl | rfl | rfl | rfl | rfl | rfl | rfl
  · exact ⟨.init, packCommand_eq_iff.2 ⟨hop, h0, row_ch_zero h rfl rfl, row_arg_zero h rfl rfl, h1⟩⟩
  · exact ⟨.isInitialized, packCommand_eq_iff.2 ⟨hop, h0, row_ch_zero h rfl rfl, row_arg_zero h rfl rfl, h1⟩⟩
  · exact ⟨.enableChannel (cmdCh w), packCommand_eq_iff.2 ⟨hop, h0, rfl, row_arg_zero h rfl rfl, h1⟩⟩
  · exact ⟨.disableChannel (cmdCh w), packCommand_eq_iff.2 ⟨hop, h0, rfl, row_arg_zero h rfl rfl, h1⟩⟩
  · exact ⟨.updateAllChannels, packCommand_eq_iff.2 ⟨hop, h0, row_ch_zero h rfl rfl, row_arg_zero h rfl rfl, h1⟩⟩
  · exact ⟨.setChannelCalibration (cmdCh w) (cmdArg w), packCommand_eq_iff.2 ⟨hop, h0, rfl, rfl, h1⟩⟩
  · exact ⟨.addrOf (cmdArg w), packCommand_eq_iff.2 ⟨hop, h0, row_ch_zero h rfl rfl, rfl, h1⟩⟩
  · exact ⟨.decodeAddr (cmdArg w), packCommand_eq_iff.2 ⟨hop, h0, row_ch_zero h rfl rfl, rfl, h1⟩⟩

end Table

/-- Settles O14: a word decodes exactly if it is a well-formed command's (O12, O13), and the commands' words are those
that match a row. -/
theorem decodeMatchesTable : Obligations.DecodeMatchesTable := by
  intro sw w
  have hrow (i : Instr) (hd : decode sw w = .ok i) :
      ∃ r ∈ opcodeTable, w &&& r.mask = r.pattern ∧ r.mnemonic = i.mnemonic := by
    obtain ⟨rfl, -⟩ := decode_eq_ok_iff.1 hd
    obtain ⟨hmem, hmn, hhit⟩ := encode_matches_row i
    exact ⟨_, hmem, hhit, hmn⟩
  refine ⟨⟨?_, ?_⟩, hrow, fun r hr q hq => row_unique hr hq⟩
  · rintro ⟨i, hd⟩
    obtain ⟨r, hr, hhit, -⟩ := hrow i hd
    obtain ⟨rfl, hwf⟩ := decode_eq_ok_iff.1 hd
    exact ⟨⟨r, hr, hhit⟩, wellFormed_iff.1 hwf⟩
  · rintro ⟨⟨r, hr, hhit⟩, hname⟩
    obtain ⟨i, rfl⟩ := exists_encode_of_row hr hhit
    exact ⟨i, decode_eq_ok_iff.2 ⟨rfl, wellFormed_iff.2 hname⟩⟩

/-! ## Illegal words and sample words (R61, R63, R70) -/

/-- Settles O15: the eight assigned opcodes are excluded, and the decoder's last row is left. -/
theorem unassignedOpcodesIllegal : Obligations.UnassignedOpcodesIllegal := by
  intro sw w hop
  unfold decode
  split
  case h_9 => rfl
  all_goals
    next heq =>
    rw [heq] at hop
    exact absurd hop (by decide)

/-- Settles O16: each word is decoded by evaluation. -/
theorem sampleWords : Obligations.SampleWords := by
  unfold Obligations.SampleWords
  decide

/-! ## The register names (R69) -/

section Names
variable {sw id : Byte}

theorem isName_of_le (h : id ≤ 0x0F#8) : isName sw id = true := if_pos h

theorem isName_of_gt (h : 0x18#8 < id) : isName sw id = false := by
  have hbig : ¬ id ≤ 0x0F#8 := by bv_omega
  have hout : rsvAddr[(id - 0x10#8).toNat]? = none :=
    List.getElem?_eq_none (by simp only [rsvAddr, List.length_cons, List.length_nil]; bv_omega)
  simp only [isName, hbig, if_false, hout]

/-- The ids of the reserved addresses, one by one. -/
theorem reserved_id_cases (hlo : ¬ id ≤ 0x0F#8) (hhi : id ≤ 0x18#8) :
    id = 0x10#8 ∨ id = 0x11#8 ∨ id = 0x12#8 ∨ id = 0x13#8 ∨ id = 0x14#8 ∨ id = 0x15#8 ∨ id = 0x16#8 ∨ id = 0x17#8 ∨
      id = 0x18#8 := by bv_omega

end Names

/-- Settles O17, by the range of the id: below the reserved ids, reserved, and above them. -/
theorem registerNames : Obligations.RegisterNames := by
  intro sw id
  by_cases hlo : id ≤ 0x0F#8
  · have hne (k : Byte) (hk : ¬ k ≤ 0x0F#8) : id ≠ k := fun h => hk (h ▸ hlo)
    exact iff_of_true (isName_of_le hlo) ⟨by bv_omega, by simp [hne]⟩
  · by_cases hhi : id ≤ 0x18#8
    · rcases reserved_id_cases hlo hhi with rfl | rfl | rfl | rfl | rfl | rfl | rfl | rfl | rfl <;>
        simp [isName, rsvAddr]
    · exact iff_of_false (by simp [isName_of_gt (BitVec.not_le.1 hhi)]) fun h => hhi h.1

/-! ## No step stops (R73, R140) -/

namespace Machine

theorem onXferDone_next {s : State} (h : issuesTransfers s.op = true) (o : XferOutcome) :
    ∃ t, onXferDone o s = .next t := ⟨_, if_pos h⟩

/-- Settles O53, by the kinds of step: no command's meaning stops, and in BUSY the invariant gives a latched command
that issues transfers. -/
theorem neverStops : Obligations.NeverStops := by
  intro s hinv
  have hkind : StepKind s (step s) := step_kind s
  generalize step s = o at hkind
  cases hkind with
  | waits _ => exact ⟨_, rfl⟩
  | rst es _ => exact ⟨_, rfl⟩
  | runs w es i _ _ _ => exact exec_next i _
  | rejects w es e _ _ _ => exact ⟨_, rfl⟩
  | transfer o es hp _ => exact onXferDone_next ((hinv.withInputs es).issuesTransfers hp) o
  | takes es _ _ => exact ⟨_, rfl⟩
  | ignores e es _ => exact ⟨_, rfl⟩

end Machine
end Sys2Proof
end

section
/-! PROOFS for 40_address_decoder: the two maps of R80 and R81 case by case, the inverse relation between them (R85),
the number of addresses that decode (R81), and the answers of ADDR_OF and DECODE_ADDR (R82, R83). -/

namespace Sys2Proof.Machine

/-! ## The reserved addresses (R80) -/

/-- A reserved address is none of those R12 excludes: it is no calibration, group or status-reset address. -/
theorem swAdmitted_of_mem_rsvAddr : ∀ a ∈ rsvAddr, Config.swAdmitted a = true := by decide

theorem reachable_of_mem_rsvAddr : ∀ a ∈ rsvAddr, reachable a = true := by decide

/-- The reserved addresses are distinct, so the index of one is its only position. -/
theorem idxOf?_rsvAddr_eq_some_iff {a : Byte} {i : Nat} : rsvAddr.idxOf? a = some i ↔ rsvAddr[i]? = some a := by
  have hnodup : rsvAddr.Nodup := by decide
  rw [List.idxOf?_eq_some_iff, List.getElem?_eq_some_iff]
  refine ⟨fun ⟨hi, ha, _⟩ => ⟨hi, ha⟩, fun ⟨hi, ha⟩ => ⟨hi, ha, fun j hj hja => ?_⟩⟩
  have hji : j = i := (hnodup.getElem_inj_iff (hi := hj.trans hi) (hj := hi)).1 (hja.trans ha.symm)
  exact hj.ne hji

/-! ## The forward map (R80) -/

section Forward
variable {sw id a : Byte}

theorem addrOf_cal (h : id ≤ 0x0B#8) : addrOf sw id = some (calBase + id) := by
  have hname : isName sw id = true := isName_of_le (by bv_omega)
  rw [addrOf, if_pos hname, if_pos h]

theorem addrOf_grp0 : addrOf sw 0x0C = some grp0Addr := rfl

theorem addrOf_grp1 : addrOf sw 0x0D = some grp1Addr := rfl

theorem addrOf_statusReset : addrOf sw 0x0E = some statusResetAddr := rfl

theorem addrOf_swReset : addrOf sw 0x0F = some sw := rfl

/-- Above SW_RESET the ids name the reserved addresses other than the software-reset register's (R69). -/
theorem addrOf_reserved_eq_some_iff (h : ¬ id ≤ 0x0F#8) :
    addrOf sw id = some a ↔ a ≠ sw ∧ rsvAddr[(id - 0x10#8).toNat]? = some a := by
  have hcal : ¬ id ≤ 0x0B#8 := by bv_omega
  have hfix : id ≠ 0x0C#8 ∧ id ≠ 0x0D#8 ∧ id ≠ 0x0E#8 ∧ id ≠ 0x0F#8 := by bv_omega
  simp only [addrOf, isName, h, hcal, hfix, if_false]
  cases rsvAddr[(id - 0x10#8).toNat]? with
  | none => simp
  | some b => simp +contextual

end Forward

/-- Settles O18: the forward map's equations; a listed reserved id is at its address's position in `RSV_ADDR`. -/
theorem addressOfEveryName : Obligations.AddressOfEveryName := by
  intro sw
  refine ⟨fun k => ?_, addrOf_grp0, addrOf_grp1, addrOf_statusReset, addrOf_swReset, fun p hp => ?_⟩
  · have hk : k.val < 12 := k.isLt
    rw [addrOf_cal (by bv_omega), BitVec.ofNat_add]
    rfl
  · have hrow : ¬ p.1 ≤ 0x0F#8 ∧ rsvAddr[(p.1 - 0x10#8).toNat]? = some p.2 := by
      fin_cases hp <;> exact ⟨by decide, rfl⟩
    exact fun hne => (addrOf_reserved_eq_some_iff hrow.1).2 ⟨hne, hrow.2⟩

/-! ## The reverse map (R81) -/

section Reverse
variable {sw id a : Byte}

theorem idOfAddr_cal (h : 0x48#8 ≤ a ∧ a ≤ 0x53#8) : idOfAddr sw a = some (a - calBase) := if_pos h

theorem idOfAddr_grp0 : idOfAddr sw grp0Addr = some 0x0C := rfl

theorem idOfAddr_grp1 : idOfAddr sw grp1Addr = some 0x0D := rfl

theorem idOfAddr_statusReset : idOfAddr sw statusResetAddr = some 0x0E := rfl

/-- An address R12 admits passes the tests of the calibration, group and status-reset addresses. -/
theorem idOfAddr_of_swAdmitted (h : Config.swAdmitted a = true) :
    idOfAddr sw a = if a = sw then some 0x0F else (rsvAddr.idxOf? a).map fun i => 0x10#8 + BitVec.ofNat 8 i := by
  simp only [Config.swAdmitted, Bool.and_eq_true, Bool.not_eq_true', bne_iff_ne, ne_eq, Bool.and_eq_false_iff,
    decide_eq_false_iff_not] at h
  obtain ⟨⟨⟨hcal, h0⟩, h1⟩, hst⟩ := h
  exact (if_neg (not_and_or.2 hcal)).trans ((if_neg h0).trans ((if_neg h1).trans (if_neg hst)))

theorem idOfAddr_swReset (h : Config.swAdmitted sw = true) : idOfAddr sw sw = some 0x0F :=
  (idOfAddr_of_swAdmitted h).trans (if_pos rfl)

theorem idOfAddr_reserved {i : Nat} (hi : rsvAddr[i]? = some a) (hne : a ≠ sw) :
    idOfAddr sw a = some (0x10#8 + BitVec.ofNat 8 i) := by
  have hmem : a ∈ rsvAddr := List.mem_of_getElem? hi
  rw [idOfAddr_of_swAdmitted (swAdmitted_of_mem_rsvAddr a hmem), if_neg hne, idxOf?_rsvAddr_eq_some_iff.2 hi]
  rfl

/-! ## The maps are inverse (R85) -/

theorem idOfAddr_of_addrOf (hadm : Config.swAdmitted sw = true) (h : addrOf sw id = some a) :
    idOfAddr sw a = some id := by
  by_cases hres : id ≤ 0x0F#8
  · rw [addrOf, if_pos (isName_of_le hres)] at h
    split_ifs at h with hcal h0 h1 hst hsw
    · cases h; rw [idOfAddr_cal (by rw [calBase]; bv_omega), add_sub_cancel_left]
    · cases h; subst h0; exact idOfAddr_grp0
    · cases h; subst h1; exact idOfAddr_grp1
    · cases h; subst hst; exact idOfAddr_statusReset
    · cases h; subst hsw; exact idOfAddr_swReset hadm
    · bv_omega
  · obtain ⟨hne, hi⟩ := (addrOf_reserved_eq_some_iff hres).1 h
    rw [idOfAddr_reserved hi hne, BitVec.ofNat_toNat, BitVec.setWidth_eq, add_sub_cancel]

theorem addrOf_of_idOfAddr (h : idOfAddr sw a = some id) : addrOf sw id = some a := by
  unfold idOfAddr at h
  split_ifs at h with hcal h0 h1 hst hsw
  · cases h
    rw [addrOf_cal (by rw [calBase]; bv_omega), add_sub_cancel]
  · cases h; rw [h0, addrOf_grp0]
  · cases h; rw [h1, addrOf_grp1]
  · cases h; rw [hst, addrOf_statusReset]
  · cases h; rw [hsw, addrOf_swReset]
  · obtain ⟨i, hi, rfl⟩ := Option.map_eq_some_iff.1 h
    rw [idxOf?_rsvAddr_eq_some_iff] at hi
    have hlt : i < 9 := (List.getElem?_eq_some_iff.1 hi).1
    have hidx : (0x10#8 + BitVec.ofNat 8 i - 0x10#8).toNat = i := by bv_omega
    exact (addrOf_reserved_eq_some_iff (by bv_omega)).2 ⟨hsw, by rw [hidx, hi]⟩

end Reverse

/-- Settles O20: each map undoes the other, so two ids with one address are what that address decodes to. -/
theorem addressRoundTrip : Obligations.AddressRoundTrip := by
  intro sw hadm
  refine ⟨fun id hname => ?_, fun a id => addrOf_of_idOfAddr, fun id jd a hi hj => ?_⟩
  · obtain ⟨a, ha⟩ := addrOf_of_isName hname
    exact ⟨a, ha, idOfAddr_of_addrOf hadm ha⟩
  · exact Option.some.inj ((idOfAddr_of_addrOf hadm hi).symm.trans (idOfAddr_of_addrOf hadm hj))

/-! ## How many addresses decode (R81) -/

/-- The addresses that decode are the reach of R43 and the software-reset register's. -/
theorem idOfAddr_isSome_iff {sw a : Byte} (hadm : Config.swAdmitted sw = true) :
    (idOfAddr sw a).isSome = true ↔ a = sw ∨ reachable a = true := by
  constructor
  · intro h
    unfold idOfAddr at h
    split_ifs at h with hcal h0 h1 hst hsw
    · exact .inr (by simp [reachable, hcal])
    · exact .inr (by rw [h0]; rfl)
    · exact .inr (by rw [h1]; rfl)
    · exact .inr (by rw [hst]; rfl)
    · exact .inl hsw
    · rw [Option.isSome_map, List.isSome_idxOf?] at h
      exact .inr (reachable_of_mem_rsvAddr a h)
  · rintro (rfl | h)
    · rw [idOfAddr_swReset hadm]; rfl
    · exact idOfAddr_isSome_of_reachable h

/-- The reach of R43, as numbers: the calibration, group, status-reset and reserved addresses. -/
def reachNats : Finset Nat :=
  Finset.Icc 0x48 0x53 ∪ {0x56, 0x57, 0x6B} ∪ {0x6C, 0x79, 0x7A, 0x7B, 0xB5, 0xB6, 0xB7, 0xB8, 0xB9}

theorem card_reachNats : reachNats.card = 24 := by decide

theorem toNat_mem_reachNats {a : Byte} : a.toNat ∈ reachNats ↔ reachable a = true := by
  simp only [reachNats, reachable, Finset.mem_union, Finset.mem_Icc, Finset.mem_insert, Finset.mem_singleton,
    Bool.or_eq_true, Bool.and_eq_true, decide_eq_true_eq, List.contains_iff_mem, List.mem_cons, List.not_mem_nil,
    or_false, BitVec.le_def, ← BitVec.toNat_inj, BitVec.toNat_ofNat]
  omega

/-- The numbers of the addresses that decode. -/
def decodableNats (sw : Byte) : Finset Nat :=
  ((List.range 256).filter fun n => (idOfAddr sw (BitVec.ofNat 8 n)).isSome).toFinset

theorem decodableNats_eq {sw : Byte} (hadm : Config.swAdmitted sw = true) :
    decodableNats sw = insert sw.toNat reachNats := by
  ext n
  by_cases hn : n < 256
  · obtain ⟨a, rfl⟩ : ∃ a : Byte, a.toNat = n := ⟨BitVec.ofNat 8 n, Nat.mod_eq_of_lt hn⟩
    simp [decodableNats, hn, idOfAddr_isSome_iff hadm, toNat_mem_reachNats, BitVec.toNat_inj]
  · have hfix : n ∉ reachNats := by simp [reachNats]; omega
    have hsw : n ≠ sw.toNat := by omega
    simp [decodableNats, hn, hfix, hsw]

/-- Settles O19: the 24 addresses of the reach, and the software-reset register's unless it is a reserved one. -/
theorem decodableAddressCount : Obligations.DecodableAddressCount := by
  intro sw hadm
  have hmem : sw.toNat ∈ reachNats ↔ sw ∈ rsvAddr :=
    toNat_mem_reachNats.trans ⟨fun h => mem_rsvAddr_of_reachable h hadm, reachable_of_mem_rsvAddr sw⟩
  calc
    _ = (decodableNats sw).card := (List.toFinset_card_of_nodup (List.nodup_range.filter _)).symm
    _ = if sw.toNat ∈ reachNats then 24 else 25 := by
      rw [decodableNats_eq hadm, Finset.card_insert_eq_ite, card_reachNats]
    _ = _ := if_congr hmem rfl rfl

/-! ## The commands (R82, R83) -/

/-- A command answered at once: RESP with its word, and nothing else has happened. -/
theorem latch_respond_answers (s : State) (op : BitVec 4) (ch arg : Byte) (c : ResultCode) (d : Byte) :
    Answered s ((s.latch op ch arg).respond c d) (rspWord c d) ∧ SameFlags s ((s.latch op ch arg).respond c d) ∧
      NoTransfer s ((s.latch op ch arg).respond c d) :=
  ⟨⟨rfl, rfl, rfl, rfl⟩, ⟨rfl, rfl⟩, rfl, rfl, fun _ => rfl⟩

/-- Settles O21: a name has an address, and the answer is given at once. -/
theorem addrOfAnswers : Obligations.AddrOfAnswers := by
  intro s regid hname
  obtain ⟨a, ha⟩ := addrOf_of_isName hname
  refine ⟨_, a, exec_addrOf_some ha, ha, ?_⟩
  have hword : rspWord .ok a = answerWord a 0 := rspWord_eq_answerWord .ok a
  exact hword ▸ latch_respond_answers s opAddrOf 0 regid .ok a

/-- Settles O22: an id that is no name has no address (log 14). -/
theorem addrOfNonName : Obligations.AddrOfNonName := by
  intro s regid hname
  exact ⟨_, exec_addrOf_none (addrOf_of_not_isName hname), latch_respond_answers s opAddrOf 0 regid .illegalCommand 0⟩

/-- Settles O23, by what the address decodes to: the id's address is the one asked for (R85), or no id has it, because
it would decode. -/
theorem decodeAddrAnswers : Obligations.DecodeAddrAnswers := by
  intro s a hadm
  cases h : idOfAddr s.cfg.swResetAddr a with
  | some id =>
    obtain ⟨hans, hflags, hbus⟩ := latch_respond_answers s opDecodeAddr 0 a .ok id
    rw [rspWord_eq_answerWord] at hans
    exact ⟨_, exec_decodeAddr_some h, hflags, hbus, .inl ⟨id, addrOf_of_idOfAddr h, hans⟩⟩
  | none =>
    obtain ⟨hans, hflags, hbus⟩ := latch_respond_answers s opDecodeAddr 0 a .invalidAddress 0
    refine ⟨_, exec_decodeAddr_none h, hflags, hbus, .inr ⟨fun id hid => ?_, hans⟩⟩
    exact Option.some_ne_none id ((idOfAddr_of_addrOf hadm hid).symm.trans h)

end Sys2Proof.Machine
end

section
/-! PROOFS for 41_init: how INIT goes on after a run of accepted transfers (R91 to R97), everything INIT can do, and what
it leaves unchanged (R98, R99, R101). -/

namespace Sys2Proof.Machine

/-! ## The handshake, one transfer longer -/

theorem okAnswers_succ (k : Fin 16) (r : Fin 16 → Byte × Byte) :
    okAnswers (k.val + 1) r = okAnswers k.val r ++ [okEvent r k] := by
  rw [okAnswers, finRange_take, List.map_append]
  rfl

theorem handshakeRun_succ (k : Fin 16) (r : Fin 16 → Byte × Byte) :
    handshakeRun (k.val + 1) r = handshakeRun k.val r ++ [handshakeTransfer k (.ok (r k).1 (r k).2)] := by
  rw [handshakeRun, finRange_take, List.map_append]
  rfl

theorem firstPairs_succ (k : Fin 16) : firstPairs (k.val + 1) = firstPairs k.val ++ [initSeq[k]] := by
  rw [firstPairs_eq, firstPairs_eq, finRange_take, List.map_append]
  rfl

/-- The pairs sent by a run of the handshake are the table's. -/
theorem handshakeRun_pairs (n : Nat) (r : Fin 16 → Byte × Byte) :
    (handshakeRun n r).map (fun x => (x.addr, x.value)) = firstPairs n := by
  rw [handshakeRun, List.map_map, firstPairs_eq]
  rfl

/-! ## The first transfers of INIT, field by field -/

section RunFirst
variable (n : Nat) (r : Fin 16 → Byte × Byte) (s : State)

@[simp] theorem runFirst_cfg : (runFirst n r s).cfg = s.cfg := afterRun_cfg ..
@[simp] theorem runFirst_initialized : (runFirst n r s).initialized = s.initialized := afterRun_initialized ..
@[simp] theorem runFirst_chEn : (runFirst n r s).chEn = s.chEn := afterRun_chEn ..
@[simp] theorem runFirst_responses : (runFirst n r s).responses = s.responses := afterRun_responses ..
@[simp] theorem runFirst_transfers : (runFirst n r s).transfers = s.transfers ++ handshakeRun n r :=
  afterRun_transfers ..

end RunFirst

/-- The run of `k + 1` transfers is the run of `k` and then transfer `k`. -/
theorem runFirst_succ {k : Fin 16} {r : Fin 16 → Byte × Byte} {s : State} {es : List PortEvent}
    (hin : (runFirst k.val r s).inputs = okEvent r k :: es) :
    runFirst (k.val + 1) r s =
      afterTransfer k initSeq[k].1 initSeq[k].2 (.ok (r k).1 (r k).2) es (runFirst k.val r s) := by
  rw [runFirst, finRange_take, afterRun_append]
  exact congrArg (fun is : List PortEvent => afterTransfer k _ _ _ is.tail (runFirst k.val r s)) hin

/-- Setting the flag and answering deliver nothing. -/
theorem HandshakeBytes.completed {s u : State} {n m : Nat} (h : HandshakeBytes s u n m) :
    HandshakeBytes s (u.markInitialized.respond .ok 0x00) n m := h

/-! ## INIT stopped by an error -/

/-- INIT stopped with result `c` at transfer `k`, which ended with outcome `o`, after `k` accepted transfers. -/
def initAborted (r : Fin 16 → Byte × Byte) (k : Fin 16) (o : XferOutcome) (es : List PortEvent) (c : ResultCode)
    (s : State) : State :=
  (afterTransfer k initSeq[k].1 initSeq[k].2 o es (runFirst k.val r s)).respond c (transferIndex k)

section Aborted
variable (r : Fin 16 → Byte × Byte) (k : Fin 16) (o : XferOutcome) (es : List PortEvent) (c : ResultCode) (s : State)

theorem initAborted_answered :
    Answered s (initAborted r k o es c s) (answerWord (BitVec.ofNat 8 k.val) (resultBits c).toNat) :=
  ⟨rfl, rspWord_eq_answerWord c _, runFirst_cfg .., runFirst_responses ..⟩

theorem initAborted_sameFlags : SameFlags s (initAborted r k o es c s) :=
  ⟨runFirst_initialized .., runFirst_chEn ..⟩

theorem initAborted_transfers :
    (initAborted r k o es c s).transfers = s.transfers ++ (handshakeRun k.val r ++ [handshakeTransfer k o]) := by
  rw [← List.append_assoc, ← runFirst_transfers]
  rfl

theorem initAborted_bytes : HandshakeBytes s (initAborted r k o es c s) k.val (k.val + 1) :=
  handshakeBytes_afterTransfer (handshakeBytes_runFirst k.val r s) o es

end Aborted

/-! ## INIT after a run of accepted transfers -/

section Exec
variable {s : State} {r : Fin 16 → Byte × Byte} {es : List PortEvent}

theorem exec_init_completes (hin : s.inputs = okAnswers 16 r ++ es) (h : EchoesUpTo s.cfg.finalEchoCheck r 16) :
    exec .init s = .next ((runFirst 16 r s).markInitialized.respond .ok 0x00) := by
  have hdone : (List.finRange 16).drop 16 = [] := by simp
  rw [exec_init_run hin h, hdone, initLoop, initSucceeded_eq]

theorem exec_init_fails {k : Fin 16} (hin : s.inputs = okAnswers k.val r ++ .xferDone .err :: es)
    (h : EchoesUpTo s.cfg.finalEchoCheck r k.val) :
    exec .init s = .next (initAborted r k .err es .busError s) := by
  rw [exec_init_run hin h, finRange_drop, initLoop, busWrite_err (runFirst_inputs hin), initAborted]

theorem exec_init_mismatch {k : Fin 16} (hin : s.inputs = okAnswers k.val r ++ okEvent r k :: es)
    (h : EchoesUpTo s.cfg.finalEchoCheck r k.val) (hk : ¬ EchoesPrevious s.cfg.finalEchoCheck r k) :
    exec .init s = .next (initAborted r k (.ok (r k).1 (r k).2) es .commError s) := by
  have hrej : ¬ echoAccepted s.cfg.finalEchoCheck k (r k).1 (r k).2 = true := mt (accepted_iff _ r k).1 hk
  rw [exec_init_run hin h, finRange_drop, initLoop, busWrite_ok (runFirst_inputs hin), afterTransfer_cfg, runFirst_cfg,
    if_neg hrej, raise_eq, initAborted]

end Exec

/-! ## The bytes that may have arrived (R49) -/

/-- The table writes one value to each address. -/
theorem initSeq_value_unique : ∀ j k : Fin 16, initSeq[j].1 = initSeq[k].1 → initSeq[j].2 = initSeq[k].2 := by decide

/-- After a run of the handshake each byte of the table has been delivered or is as it was. -/
theorem HandshakeBytes.maybeDelivered {s u : State} {n : Nat} (h : HandshakeBytes s u n n) (k : Fin 16) :
    MaybeDelivered s u initSeq[k].1 initSeq[k].2 := by
  obtain ⟨hsent, hother⟩ := h
  by_cases hk : ∃ p ∈ firstPairs n, p.1 = initSeq[k].1
  · obtain ⟨p, hp, haddr⟩ := hk
    have hread := hsent p hp
    rw [firstPairs_eq] at hp
    obtain ⟨j, -, rfl⟩ := List.mem_map.1 hp
    rw [haddr, initSeq_value_unique j k haddr] at hread
    exact .inl hread
  · refine .inr (hother _ fun b hb heq => hk ?_)
    obtain ⟨p, hp, rfl⟩ := List.mem_map.1 hb
    exact ⟨p, hp, (BitVec.eq_of_toNat_eq heq).symm⟩

/-- The byte of the transfer at which INIT stopped was delivered or is as it was. -/
theorem initAborted_maybeDelivered (r : Fin 16 → Byte × Byte) (k : Fin 16) (o : XferOutcome) (es : List PortEvent)
    (c : ResultCode) (s : State) : MaybeDelivered s (initAborted r k o es c s) initSeq[k].1 initSeq[k].2 := by
  rcases afterTransfer_maybe (t := k) (a := initSeq[k].1) (v := initSeq[k].2) (o := o) (es := es)
    (s := runFirst k.val r s) with hnew | hold
  · exact .inl hnew
  · exact ((handshakeBytes_runFirst k.val r s).maybeDelivered k).imp hold.trans hold.trans

/-! ## INIT, one outcome at a time (R91 to R97) -/

/-- Settles O37: the run of all sixteen transfers, then the flag and the answer. -/
theorem initCompletes : Obligations.InitCompletes := by
  intro s r es hin h
  exact ⟨_, exec_init_completes hin h, ⟨rfl, rfl, runFirst_cfg 16 r s, runFirst_responses 16 r s⟩, rfl,
    runFirst_chEn 16 r s, runFirst_inputs hin, runFirst_transfers 16 r s,
    (handshakeBytes_runFirst 16 r s).completed⟩

/-- Settles O38: the run of `n` transfers, then a failure. -/
theorem initBusError : Obligations.InitBusError := by
  intro s r n es hin h
  refine ⟨_, exec_init_fails hin h, initAborted_answered .., initAborted_sameFlags .., rfl, ?_, initAborted_bytes ..,
    initAborted_maybeDelivered ..⟩
  rw [initAborted_transfers, List.append_assoc]

/-- Settles O39: the run of `n` transfers, then a reply that is refused; that transfer too succeeded, so the bytes are
those of the run of `n + 1`. -/
theorem initCommError : Obligations.InitCommError := by
  intro s r n es hin h hn
  have hin' : s.inputs = okAnswers n.val r ++ okEvent r n :: es := by
    rw [hin, okAnswers_succ, List.append_assoc, List.singleton_append]
  refine ⟨_, exec_init_mismatch hin' h hn, initAborted_answered .., initAborted_sameFlags .., rfl, ?_, ?_⟩
  · rw [initAborted_transfers, handshakeRun_succ]
  · have hbytes := handshakeBytes_runFirst (n.val + 1) r s
    rw [runFirst_succ (runFirst_inputs hin')] at hbytes
    exact hbytes

/-! ## Everything INIT can do -/

/-- How INIT leaves the block: completed, waiting for an answer, or stopped by an error. -/
inductive InitEnd (s t : State) : Prop where
  | completes (r : Fin 16 → Byte × Byte) (es : List PortEvent) (hin : s.inputs = okAnswers 16 r ++ es)
      (h : EchoesUpTo s.cfg.finalEchoCheck r 16) (ht : t = (runFirst 16 r s).markInitialized.respond .ok 0x00)
  | waits (r : Fin 16 → Byte × Byte) (k : Fin 16)
      (ht : t = (runFirst k.val r s).request k initSeq[k].1 initSeq[k].2)
  | aborts (r : Fin 16 → Byte × Byte) (k : Fin 16) (o : XferOutcome) (es : List PortEvent) (c : ResultCode)
      (hc : resultBits c ≠ 0) (ht : t = initAborted r k o es c s)

/-- What precedes transfer `k` in the handshake is its first `k` transfers. -/
theorem afterRun_eq_runFirst {pre ks : List (Fin 16)} {k : Fin 16} (h : List.finRange 16 = pre ++ k :: ks)
    (r : Fin 16 → Byte × Byte) (s : State) : afterRun r pre (s.latch opInit 0 0) = runFirst k.val r s := by
  rw [runFirst, ← length_of_finRange_eq_append h, h, List.take_left]

theorem exec_init_end {s t : State} (h : exec .init s = .next t) : InitEnd s t := by
  cases h
  obtain ⟨r, pre, suf, es, hts, hin, hacc, hend⟩ := initLoop_cases (List.nodup_finRange 16) (s.latch opInit 0 0)
  cases hend with
  | success hsuf ht =>
    obtain rfl : List.finRange 16 = pre := by rw [hts, hsuf, List.append_nil]
    exact .completes r es hin (fun k _ => (accepted_iff _ r k).1 (hacc k (List.mem_finRange k))) ht
  | waits k ks hsuf _ ht =>
    rw [afterRun_eq_runFirst (hsuf ▸ hts)] at ht
    exact .waits r k ht
  | fails k ks es' hsuf _ ht =>
    rw [afterRun_eq_runFirst (hsuf ▸ hts)] at ht
    exact .aborts r k .err es' .busError (by decide) ht
  | mismatch k ks q0 q1 es' hsuf _ _ ht =>
    rw [afterRun_eq_runFirst (hsuf ▸ hts)] at ht
    exact .aborts r k (.ok q0 q1) es' .commError (by decide) ht

section InitEnd
variable {s t : State}

/-- The flag is set by an INIT that answers OK, and by no other (R97, R98). -/
theorem InitEnd.flag (h : InitEnd s t) :
    ((t.phase = .resp ∧ t.rsp = 0x0000) ∧ t.initialized = true ∧
      ∃ r es, s.inputs = okAnswers 16 r ++ es ∧ EchoesUpTo s.cfg.finalEchoCheck r 16) ∨
    (¬ (t.phase = .resp ∧ t.rsp = 0x0000) ∧ t.initialized = s.initialized) := by
  cases h with
  | completes r es hin h ht => subst ht; exact .inl ⟨⟨rfl, rfl⟩, rfl, r, es, hin, h⟩
  | waits r k ht => subst ht; exact .inr ⟨(nomatch ·.1), runFirst_initialized ..⟩
  | aborts r k o es c hc ht =>
    subst ht
    exact .inr ⟨fun ⟨_, hok⟩ => rspWord_ne_zero hc _ hok, runFirst_initialized ..⟩

/-- INIT changes neither the vector nor the parameters, and its response is not taken yet. -/
theorem InitEnd.frame (h : InitEnd s t) : t.chEn = s.chEn ∧ t.cfg = s.cfg ∧ t.responses = s.responses := by
  cases h with
  | completes r es _ _ ht => subst ht; exact ⟨runFirst_chEn 16 r s, runFirst_cfg 16 r s, runFirst_responses 16 r s⟩
  | waits r k ht => subst ht; exact ⟨runFirst_chEn .., runFirst_cfg .., runFirst_responses ..⟩
  | aborts r k o es c _ ht => subst ht; exact ⟨runFirst_chEn .., runFirst_cfg .., runFirst_responses ..⟩

/-- INIT has sent the first pairs of the table, and touched no byte outside their addresses. -/
theorem InitEnd.sent (h : InitEnd s t) :
    ∃ n ≤ 16, ∃ l, t.transfers = s.transfers ++ l ∧ l.map (fun x => (x.addr, x.value)) = firstPairs n ∧
      SameBytesOutside s t ((firstPairs n).map Prod.fst) := by
  cases h with
  | completes r es _ _ ht =>
    subst ht
    exact ⟨16, le_rfl, _, runFirst_transfers 16 r s, handshakeRun_pairs 16 r,
      (handshakeBytes_runFirst 16 r s).completed.2⟩
  | waits r k ht =>
    subst ht
    exact ⟨k.val, k.isLt.le, _, runFirst_transfers .., handshakeRun_pairs .., (handshakeBytes_runFirst k.val r s).2⟩
  | aborts r k o es c _ ht =>
    subst ht
    refine ⟨k.val + 1, k.isLt, _, initAborted_transfers .., ?_, (initAborted_bytes ..).2⟩
    rw [List.map_append, handshakeRun_pairs, firstPairs_succ]
    rfl

end InitEnd

/-- Settles O41: INIT completes in only one way, and sixteen answers that pass leave it no other. -/
theorem initSucceedsIff : Obligations.InitSucceedsIff := by
  intro s t h
  refine ⟨⟨fun hok => ?_, fun ⟨r, es, hin, hecho⟩ => ?_⟩, fun hclear => ?_⟩
  · obtain ⟨-, -, hanswers⟩ | ⟨hnot, -⟩ := (exec_init_end h).flag
    · exact hanswers
    · exact absurd hok hnot
  · cases (exec_init_completes hin hecho).symm.trans h
    exact ⟨rfl, rfl⟩
  · obtain ⟨hok, hset, -⟩ | ⟨hnot, hsame⟩ := (exec_init_end h).flag
    · exact iff_of_true hset hok
    · exact iff_of_false (by rw [hsame, hclear]; decide) hnot

/-- Settles O42: only the answer OK sets the flag, and no answer changes the rest. -/
theorem failedInitKeepsFlag : Obligations.FailedInitKeepsFlag := by
  intro s t h _ hrsp
  obtain ⟨hchEn, hcfg, hresponses⟩ := (exec_init_end h).frame
  obtain ⟨⟨-, hok⟩, -⟩ | ⟨-, hsame⟩ := (exec_init_end h).flag
  · exact absurd hok hrsp
  · exact ⟨⟨hsame, hchEn⟩, hcfg, hresponses⟩

/-- Settles O43: the transfers sent are a run of the table, with at most one failed or refused at its end. -/
theorem initFrame : Obligations.InitFrame := by
  intro s t h
  obtain ⟨hchEn, hcfg, hresponses⟩ := (exec_init_end h).frame
  exact ⟨hchEn, hcfg, hresponses, (exec_init_end h).sent⟩

end Sys2Proof.Machine
end

section
/-! PROOFS for 42_channels: the flag's answer (R110), the channel mutations (R112 to R114), the packer and the two group
writes (R115 to R120), and the calibration write (R121, R122). -/

namespace Sys2Proof.Machine

/-! ## IS_INITIALIZED (R110) -/

/-- Settles O24: the word answered at once is the flag's, whichever value the flag has. -/
theorem isInitializedAnswers : Obligations.IsInitializedAnswers := by
  intro s
  have hword : rspWord .ok (flagByte s.initialized) = if s.initialized then 0x0100 else 0x0000 := by
    cases s.initialized <;> rfl
  exact ⟨_, exec_isInitialized, hword ▸ latch_respond_answers s opIsInitialized 0 0 .ok (flagByte s.initialized)⟩

/-! ## ENABLE_CHANNEL and DISABLE_CHANNEL (R112 to R114) -/

/-- A channel mutation that has passed its checks: OK, one bit put, and nothing else has happened. -/
theorem latch_putChannel_respond_answers (s : State) (op : BitVec 4) (ch : Byte) (on : Bool) :
    Answered s (((s.latch op ch 0).putChannel ch on).respond .ok 0x00) 0x0000 ∧
      (((s.latch op ch 0).putChannel ch on).respond .ok 0x00).initialized = s.initialized ∧
      NoTransfer s (((s.latch op ch 0).putChannel ch on).respond .ok 0x00) :=
  ⟨⟨rfl, rfl, rfl, rfl⟩, rfl, rfl, rfl, fun _ => rfl⟩

/-- Settles O25: the bit put is 1, and the rest of the vector is as before. -/
theorem enableChannelSetsBit : Obligations.EnableChannelSetsBit := by
  intro s ch hch hi
  obtain ⟨hans, hflag, hbus⟩ := latch_putChannel_respond_answers s opEnableChannel ch true
  exact ⟨_, exec_enableChannel_ok hch hi, hans, hflag.trans hi, hbus, setChannel_same hch, fun _ => setChannel_other⟩

/-- Settles O26: the bit put is 0, and the rest of the vector is as before. -/
theorem disableChannelClearsBit : Obligations.DisableChannelClearsBit := by
  intro s ch hch hi
  obtain ⟨hans, hflag, hbus⟩ := latch_putChannel_respond_answers s opDisableChannel ch false
  exact ⟨_, exec_disableChannel_ok hch hi, hans, hflag.trans hi, hbus, setChannel_same hch, fun _ => setChannel_other⟩

/-- The two mutations are one, up to the opcode in the latch. -/
theorem exec_switch_ok {s : State} {ch : Byte} {on : Bool} (hch : ch.toNat < 12) (hi : s.initialized = true) :
    ∃ op, exec (if on then .enableChannel ch else .disableChannel ch) s =
      .next (((s.latch op ch 0).putChannel ch on).respond .ok 0x00) := by
  cases on with
  | true => exact ⟨_, exec_enableChannel_ok hch hi⟩
  | false => exact ⟨_, exec_disableChannel_ok hch hi⟩

/-- Settles O27: putting a bit the value it has is no change. -/
theorem mutationsIdempotent : Obligations.MutationsIdempotent := by
  intro s ch on hch hi hbit
  obtain ⟨op, hexec⟩ := exec_switch_ok (on := on) hch hi
  obtain ⟨⟨hphase, hrsp, -, -⟩, hflag, hbus⟩ := latch_putChannel_respond_answers s op ch on
  exact ⟨_, hexec, hrsp, hphase, ⟨hflag, setChannel_noop hch hbit⟩, hbus⟩

/-! ## The packer (R115, R116) -/

theorem pack0_getLsbD (e : ChannelVec) {k : Nat} (h : k < 6) : (pack0 e).getLsbD k = e.getLsbD k := by
  simp [pack0, h, show k < 8 by omega]

theorem pack1_getLsbD (e : ChannelVec) {k : Nat} (h : k < 6) : (pack1 e).getLsbD k = e.getLsbD (k + 6) := by
  simp [pack1, h, show k < 8 by omega, Nat.add_comm]

theorem pack0_toNat (e : ChannelVec) : (pack0 e).toNat = e.toNat % 64 := by
  simp only [pack0, BitVec.truncate_eq_setWidth, BitVec.toNat_setWidth, BitVec.extractLsb'_toNat, Nat.shiftRight_zero]
  omega

theorem pack1_toNat (e : ChannelVec) : (pack1 e).toNat = e.toNat / 64 := by
  simp only [pack1, BitVec.truncate_eq_setWidth, BitVec.toNat_setWidth, BitVec.extractLsb'_toNat,
    Nat.shiftRight_eq_div_pow]
  omega

/-- Settles O30: as numbers the masks are the remainder and the quotient of the vector by 64. -/
theorem packerLaws : Obligations.PackerLaws := by
  intro e
  have h0 := pack0_toNat e
  have h1 := pack1_toNat e
  refine ⟨fun k hk => ⟨pack0_getLsbD e hk, pack1_getLsbD e hk⟩, extractLsb'_high_zeroExtend _,
    extractLsb'_high_zeroExtend _, ?_, ?_, ?_, rfl, rfl⟩
  · omega
  · omega
  · omega

/-! ## What a transfer leaves of the chip's bytes (R44, R49) -/

section Transfer
variable {s u : State} {as : List Byte}

/-- A transfer adds at most its own address to those changed. -/
theorem SameBytesOutside.transfer (h : SameBytesOutside s u as) (t : Fin 16) (a v : Byte) (o : XferOutcome)
    (es : List PortEvent) : SameBytesOutside s (afterTransfer t a v o es u) (as ++ [a]) := fun b hb =>
  (afterTransfer_read_other (hb a (by simp))).trans (h b fun c hc => hb c (List.mem_append_left _ hc))

/-- A transfer to an address not yet written delivers its byte or leaves what stood there at first. -/
theorem SameBytesOutside.maybeDelivered (h : SameBytesOutside s u as) (t : Fin 16) {a : Byte} (v : Byte)
    (o : XferOutcome) (es : List PortEvent) (ha : ∀ b ∈ as, a.toNat ≠ b.toNat) :
    MaybeDelivered s (afterTransfer t a v o es u) a v :=
  afterTransfer_maybe.imp_right fun hold => hold.trans (h _ ha)

/-- An answer delivers nothing. -/
theorem SameBytesOutside.respond (h : SameBytesOutside s u as) (c : ResultCode) (d : Byte) :
    SameBytesOutside s (u.respond c d) as := h

theorem MaybeDelivered.respond {a v : Byte} (h : MaybeDelivered s u a v) (c : ResultCode) (d : Byte) :
    MaybeDelivered s (u.respond c d) a v := h

/-- Latching a command delivers nothing. -/
theorem sameBytesOutside_latch (s : State) (op : BitVec 4) (ch arg : Byte) :
    SameBytesOutside s (s.latch op ch arg) [] := fun _ _ => rfl

end Transfer

/-! ## The answer after one transfer, and after both group writes -/

section Ended
variable {s u : State} {op : BitVec 4} {ch arg a v m0 m1 r0 r1 : Byte} {o : XferOutcome} {es es' : List PortEvent}
  {c : ResultCode} {d : Byte}

/-- A command answered after its first transfer. -/
theorem oneTransfer_answers (hu : u = (afterTransfer 0 a v o es (s.latch op ch arg)).respond c d) :
    Answered s u (rspWord c d) ∧ SameFlags s u ∧ u.inputs = es ∧ u.transfers = s.transfers ++ [⟨a, v, some o⟩] ∧
      MaybeDelivered s u a v ∧ SameBytesOutside s u [a] := by
  subst hu
  have hlatch := sameBytesOutside_latch s op ch arg
  exact ⟨by simp [Answered], by simp [SameFlags], by simp, by simp,
    (hlatch.maybeDelivered 0 v o es (by simp)).respond c d, (hlatch.transfer 0 a v o es).respond c d⟩

/-- UPDATE_ALL_CHANNELS answered after its second transfer: the first mask has arrived, and the second transfer leaves
its byte alone (R170). -/
theorem groupWrites_answer (hu : u = (afterTransfer 1 grp1Addr m1 o es
      (afterTransfer 0 grp0Addr m0 (.ok r0 r1) es' (s.latch op ch arg))).respond c d) :
    Answered s u (rspWord c d) ∧ SameFlags s u ∧ u.inputs = es ∧
      u.transfers = s.transfers ++ [⟨grp0Addr, m0, some (.ok r0 r1)⟩, ⟨grp1Addr, m1, some o⟩] ∧
      Memory.read u.delivered grp0Addr.toNat = some m0 ∧ MaybeDelivered s u grp1Addr m1 ∧
      SameBytesOutside s u [grp0Addr, grp1Addr] := by
  subst hu
  have hfirst := (sameBytesOutside_latch s op ch arg).transfer 0 grp0Addr m0 (.ok r0 r1) es'
  refine ⟨by simp [Answered], by simp [SameFlags], by simp, by simp, ?_,
    (hfirst.maybeDelivered 1 m1 o es (by decide)).respond c d, (hfirst.transfer 1 grp1Addr m1 o es).respond c d⟩
  rw [State.respond_delivered, afterTransfer_read_other (by decide), afterTransfer_read_ok]

end Ended

/-! ## UPDATE_ALL_CHANNELS (R117 to R120) -/

section Update
variable {s : State} {r0 r1 q0 q1 : Byte} {es : List PortEvent}

theorem exec_updateAllChannels_failsFirst (hi : s.initialized = true) (hin : s.inputs = .xferDone .err :: es) :
    exec .updateAllChannels s = .next ((afterTransfer 0 grp0Addr (pack0 s.chEn) .err es
      (s.latch opUpdateAllChannels 0 0)).respond .busError (transferIndex 0)) := by
  rw [exec_updateAllChannels_set hi, flushGroups, busWrite_err (by exact hin)]

theorem exec_updateAllChannels_failsSecond (hi : s.initialized = true)
    (hin : s.inputs = .xferDone (.ok r0 r1) :: .xferDone .err :: es) :
    exec .updateAllChannels s = .next ((afterTransfer 1 grp1Addr (pack1 s.chEn) .err es
      (afterTransfer 0 grp0Addr (pack0 s.chEn) (.ok r0 r1) (.xferDone .err :: es)
        (s.latch opUpdateAllChannels 0 0))).respond .busError (transferIndex 1)) := by
  rw [exec_updateAllChannels_set hi, flushGroups, busWrite_ok (by exact hin), busWrite_err rfl]

theorem exec_updateAllChannels_ok (hi : s.initialized = true)
    (hin : s.inputs = .xferDone (.ok r0 r1) :: .xferDone (.ok q0 q1) :: es) :
    exec .updateAllChannels s = .next ((afterTransfer 1 grp1Addr (pack1 s.chEn) (.ok q0 q1) es
      (afterTransfer 0 grp0Addr (pack0 s.chEn) (.ok r0 r1) (.xferDone (.ok q0 q1) :: es)
        (s.latch opUpdateAllChannels 0 0))).respond .ok 0x00) := by
  rw [exec_updateAllChannels_set hi, flushGroups, busWrite_ok (by exact hin), busWrite_ok rfl, complete_eq]

end Update

/-- Settles O31: both group writes succeed, so the second mask has arrived too. -/
theorem updateFlushesBothGroups : Obligations.UpdateFlushesBothGroups := by
  intro s r0 r1 q0 q1 es hi hin
  obtain ⟨hans, hflags, hinputs, htransfers, hgrp0, -, hbytes⟩ := groupWrites_answer (s := s) rfl
  exact ⟨_, exec_updateAllChannels_ok hi hin, hans, hflags, hinputs, htransfers, hgrp0,
    afterTransfer_read_ok (r0 := q0) (r1 := q1), hbytes⟩

/-- Settles O32: the answer carries the index of the group write that failed. -/
theorem updateAbortsOnFailure : Obligations.UpdateAbortsOnFailure := by
  intro s es hi
  refine ⟨fun hin => ?_, fun r0 r1 hin => ?_⟩
  · exact ⟨_, exec_updateAllChannels_failsFirst hi hin, oneTransfer_answers rfl⟩
  · exact ⟨_, exec_updateAllChannels_failsSecond hi hin, groupWrites_answer rfl⟩

/-! ## SET_CHANNEL_CALIBRATION (R121, R122) -/

/-- Settles O33: the sum does not wrap, and the first twelve ids are the channels. -/
theorem calibrationAddressMap : Obligations.CalibrationAddressMap := by
  intro sw ch hch
  refine ⟨?_, addrOf_cal (by bv_omega)⟩
  unfold calAddr calBase
  bv_omega

section Calibration
variable {s : State} {ch value r0 r1 : Byte} {es : List PortEvent}

theorem exec_setChannelCalibration_ok (hch : ch.toNat < 12) (hi : s.initialized = true)
    (hin : s.inputs = .xferDone (.ok r0 r1) :: es) :
    exec (.setChannelCalibration ch value) s = .next ((afterTransfer 0 (calAddr ch) value (.ok r0 r1) es
      (s.latch opSetChannelCalibration ch value)).respond .ok 0x00) := by
  rw [exec_setChannelCalibration_set hch hi, busWrite_ok (by exact hin)]

theorem exec_setChannelCalibration_fails (hch : ch.toNat < 12) (hi : s.initialized = true)
    (hin : s.inputs = .xferDone .err :: es) :
    exec (.setChannelCalibration ch value) s = .next ((afterTransfer 0 (calAddr ch) value .err es
      (s.latch opSetChannelCalibration ch value)).respond .busError (transferIndex 0)) := by
  rw [exec_setChannelCalibration_set hch hi, busWrite_err (by exact hin)]

end Calibration

/-- Settles O34: the one transfer succeeds, so its byte has arrived. -/
theorem calibrationWritten : Obligations.CalibrationWritten := by
  intro s ch value r0 r1 es hch hi hin
  obtain ⟨hans, hflags, hinputs, htransfers, -, hbytes⟩ := oneTransfer_answers (s := s) rfl
  exact ⟨_, exec_setChannelCalibration_ok hch hi hin, hans, hflags, hinputs, htransfers,
    afterTransfer_read_ok (r0 := r0) (r1 := r1), hbytes⟩

/-- Settles O35: the one transfer, with index 0, fails. -/
theorem calibrationFails : Obligations.CalibrationFails := by
  intro s ch value es hch hi hin
  exact ⟨_, exec_setChannelCalibration_fails hch hi hin, oneTransfer_answers rfl⟩

end Sys2Proof.Machine
end

section
/-! PROOFS for 60_exceptions: an error answered at once, before any transfer (R144, R145, R147), the codes of each
command's response (R141), and the flag and the vector after an error (R149). -/

namespace Sys2Proof.Machine

/-! ## Errors raised before any transfer (R144, R145, R147) -/

/-- The command answered at once with the word `w`: RESP, and nothing else has happened. -/
def AnsweredAtOnce (s : State) (w : Response) (o : Host.Outcome State Fault Refusal) : Prop :=
  ∃ t, o = .next t ∧ t.phase = .resp ∧ t.rsp = w ∧ t.cfg = s.cfg ∧ t.responses = s.responses ∧ SameFlags s t ∧
    NoTransfer s t

theorem answeredAtOnce_of_respond {s : State} {op : BitVec 4} {ch arg : Byte} {c : ResultCode} {d : Byte}
    {o : Host.Outcome State Fault Refusal} (h : o = .next ((s.latch op ch arg).respond c d)) :
    AnsweredAtOnce s (rspWord c d) o := by
  obtain ⟨⟨hphase, hrsp, hcfg, hresponses⟩, hflags, hbus⟩ := latch_respond_answers s op ch arg c d
  exact ⟨_, h, hphase, hrsp, hcfg, hresponses, hflags, hbus⟩

/-- A word that names no command, next in IDLE, is answered at once with ILLEGAL_COMMAND (R147). -/
theorem step_illegalWord {s : State} {w : Command} {es : List PortEvent} {e : DecodeError} (hp : s.phase = .idle)
    (hin : s.inputs = .command w :: es) (hd : decode s.cfg.swResetAddr w = .error e) :
    step s =
      .next (((s.withInputs es).latch (cmdOp w) (cmdCh w) (cmdArg w)).respond .illegalCommand 0x00) :=
  (step_command hp hin).trans (acceptWord_error hd)

/-- Settles O11: rejecting the word is an answer at once, in the state with the word taken from the events. -/
theorem illegalWordAnswered : Obligations.IllegalWordAnswered :=
  fun _ _ _ _ hp hin hd => answeredAtOnce_of_respond (step_illegalWord hp hin hd)

/-- Settles O28, command by command: the channel is checked first. -/
theorem invalidChannelFirst : Obligations.InvalidChannelFirst := by
  rintro s ch value i hch (rfl | rfl | rfl)
  · exact answeredAtOnce_of_respond (exec_enableChannel_invalid hch)
  · exact answeredAtOnce_of_respond (exec_disableChannel_invalid hch)
  · exact answeredAtOnce_of_respond (exec_setChannelCalibration_invalid hch)

/-- Settles O29, command by command: past the channel check, if there is one, the flag is checked next. -/
theorem notInitializedGate : Obligations.NotInitializedGate := by
  rintro s ch value i hch hi (rfl | rfl | rfl | rfl)
  · exact answeredAtOnce_of_respond (exec_enableChannel_clear hch hi)
  · exact answeredAtOnce_of_respond (exec_disableChannel_clear hch hi)
  · exact answeredAtOnce_of_respond (exec_updateAllChannels_clear hi)
  · exact answeredAtOnce_of_respond (exec_setChannelCalibration_clear hch hi)

/-! ## The codes of a response (R141) -/

/-- The low byte of a response is its code: the bits 7:4 are zero (R65). -/
theorem rspWord_toNat_mod (c : ResultCode) (d : Byte) : (rspWord c d).toNat % 256 = (resultBits c).toNat := by
  rw [rspWord_toNat]
  omega

section Codes
variable {s t u : State} {codes : List Nat}

/-- A command that ends with result `c` answers one of the codes listed, if `c`'s is listed. -/
theorem respond_code_mem {c : ResultCode} {d : Byte} (ht : t = u.respond c d) (hc : (resultBits c).toNat ∈ codes) :
    t.rsp.toNat % 256 ∈ codes := by
  rw [ht, State.respond_rsp, rspWord_toNat_mod]
  exact hc

theorem LoopEnd.code_mem {r : Fin 16 → Byte × Byte} {pre suf : List (Fin 16)} {es : List PortEvent}
    (h : LoopEnd r pre suf es s t) (hp : t.phase = .resp) : t.rsp.toNat % 256 ∈ [0, 1, 2] := by
  cases h with
  | success _ ht => exact respond_code_mem ht (by decide)
  | waits k ks _ _ ht => subst ht; cases hp
  | fails k ks es' _ _ ht => exact respond_code_mem ht (by decide)
  | mismatch k ks q0 q1 es' _ _ _ ht => exact respond_code_mem ht (by decide)

theorem switchChannel_code_mem (ch : Byte) (on : Bool) (s : State) :
    (switchChannel ch on s).rsp.toNat % 256 ∈ [0, 3, 4] := by
  rcases switchChannel_cases ch on s with ⟨-, h⟩ | ⟨-, -, h⟩ | ⟨-, -, h⟩
  · exact respond_code_mem h (by decide)
  · exact respond_code_mem h (by decide)
  · exact respond_code_mem h (by decide)

theorem UpdateEnd.code_mem (h : UpdateEnd s t) (hp : t.phase = .resp) : t.rsp.toNat % 256 ∈ [0, 1, 3] := by
  cases h with
  | clear _ ht => exact respond_code_mem ht (by decide)
  | waitsFirst _ ht => subst ht; cases hp
  | failsFirst _ es ht => exact respond_code_mem ht (by decide)
  | waitsSecond _ r0 r1 es ht => subst ht; cases hp
  | failsSecond _ r0 r1 es es' ht => exact respond_code_mem ht (by decide)
  | success _ r0 r1 q0 q1 es es' ht => exact respond_code_mem ht (by decide)

theorem CalibrationEnd.code_mem {ch value : Byte} (h : CalibrationEnd ch value s t) (hp : t.phase = .resp) :
    t.rsp.toNat % 256 ∈ [0, 1, 3, 4] := by
  cases h with
  | invalid _ ht => exact respond_code_mem ht (by decide)
  | clear _ _ ht => exact respond_code_mem ht (by decide)
  | waits _ _ ht => subst ht; cases hp
  | fails _ _ es ht => exact respond_code_mem ht (by decide)
  | success _ _ r0 r1 es ht => exact respond_code_mem ht (by decide)

theorem exec_addrOf_code_mem {regid : Byte} (h : exec (.addrOf regid) s = .next t) :
    t.rsp.toNat % 256 ∈ [0, 6] := by
  cases ha : addrOf s.cfg.swResetAddr regid with
  | some a => cases (exec_addrOf_some ha).symm.trans h; exact respond_code_mem rfl (by decide)
  | none => cases (exec_addrOf_none ha).symm.trans h; exact respond_code_mem rfl (by decide)

theorem exec_decodeAddr_code_mem {addr : Byte} (h : exec (.decodeAddr addr) s = .next t) :
    t.rsp.toNat % 256 ∈ [0, 5] := by
  cases ha : idOfAddr s.cfg.swResetAddr addr with
  | some id => cases (exec_decodeAddr_some ha).symm.trans h; exact respond_code_mem rfl (by decide)
  | none => cases (exec_decodeAddr_none ha).symm.trans h; exact respond_code_mem rfl (by decide)

end Codes

/-- Settles O49, command by command: each way the command can end with a response has a code of its list. -/
theorem resultCatalogue : Obligations.ResultCatalogue := by
  intro i s t h hp
  cases i with
  | init =>
    cases h
    obtain ⟨_, _, _, _, -, -, -, hend⟩ := initLoop_cases (List.nodup_finRange 16) (s.latch opInit 0 0)
    exact hend.code_mem hp
  | isInitialized =>
    cases exec_isInitialized.symm.trans h
    exact respond_code_mem rfl (by decide)
  | enableChannel ch => cases h; exact switchChannel_code_mem ch true _
  | disableChannel ch => cases h; exact switchChannel_code_mem ch false _
  | updateAllChannels =>
    obtain ⟨u, hu, hend⟩ := exec_updateAllChannels_cases s
    cases hu.symm.trans h
    exact hend.code_mem hp
  | setChannelCalibration ch value =>
    obtain ⟨u, hu, hend⟩ := exec_setChannelCalibration_cases ch value s
    cases hu.symm.trans h
    exact hend.code_mem hp
  | addrOf regid => exact exec_addrOf_code_mem h
  | decodeAddr addr => exact exec_decodeAddr_code_mem h

/-! ## The flag and the vector after an error (R149) -/

/-- Settles O50: transfers change neither; only a switched bit and a set flag do, and both of these answer OK. -/
theorem errorsArePrecise : Obligations.ErrorsArePrecise := by
  intro i s t h hp herr
  cases exec_end h with
  | responds u c d hu ht => subst ht; exact ⟨hu.sameBlock.initialized, hu.sameBlock.chEn⟩
  | waits u n a v _ _ _ ht => subst ht; cases hp
  | switches ch on _ _ _ ht => subst ht; exact absurd (rspWord_toNat_mod .ok 0x00) herr
  | initializes u _ _ ht => subst ht; exact absurd (rspWord_toNat_mod .ok 0x00) herr

end Sys2Proof.Machine
end

section
/-! PROOFS for 70_reset_and_hazards: `rst` in every phase (R160 to R162), a command presented outside IDLE (R174), and
the block that waits in BUSY without a timeout (R175). -/

namespace Sys2Proof.Machine

/-! ## `rst` (R160 to R162) -/

section Rst
variable {s : State}

theorem step_rst {es : List PortEvent} (hin : s.inputs = .rst :: es) : step s = .next (s.withInputs es).rst :=
  step_cons hin

/-- With no transfer outstanding, `rst` ends and delivers nothing (R161). -/
theorem rst_traces_of_not_busy (hp : s.phase ≠ .busy) :
    s.rst.transfers = s.transfers ∧ ∀ a, Memory.read s.rst.delivered a = Memory.read s.delivered a := by
  rw [State.rst_transfers, State.rst_delivered, if_neg hp, if_neg hp]
  exact ⟨rfl, fun _ => rfl⟩

/-- In BUSY the byte of the transfer that `rst` abandons was delivered or is as it was, and no other byte changes
(R162). -/
theorem rst_bytes_of_busy (hp : s.phase = .busy) :
    MaybeDelivered s s.rst s.tx0 s.tx1 ∧ SameBytesOutside s s.rst [s.tx0] := by
  unfold MaybeDelivered SameBytesOutside
  rw [State.rst_delivered, if_pos hp]
  exact ⟨s.delivery_read_sent none, fun a ha => s.delivery_read_other none (ha s.tx0 List.mem_cons_self)⟩

end Rst

/-- Settles O3: after `rst` the block is idle, so the answer that follows is a late one (R45). -/
theorem rstAbandonsCommand : Obligations.RstAbandonsCommand := by
  intro s o es _ hin
  have hlate : step (s.withInputs (.xferDone o :: es)).rst = .next _ := lateDoneIgnored _ o es (by simp) rfl
  exact ⟨_, _, step_rst hin, rfl, rfl, fun hp => rst_bytes_of_busy (s := s.withInputs _) hp, hlate, rfl⟩

/-- Settles O2: the block's fields are State.reset's own, in whatever phase `rst` comes. -/
theorem rstFromEveryPhase : Obligations.RstFromEveryPhase := by
  intro s es hin
  exact ⟨_, step_rst hin, rfl, rfl, rfl, rfl, rfl, rfl, rfl, rfl, rfl,
    fun hp => rst_traces_of_not_busy (s := s.withInputs es) hp⟩

/-! ## A command outside IDLE (R174) -/

/-- Settles O5: only IDLE listens to a command. -/
theorem commandOnlyAcceptedInIdle : Obligations.CommandOnlyAcceptedInIdle :=
  fun _ _ _ hp hin => (step_cons hin).trans (onEvent_command_ignored hp)

/-! ## No timeout (R175) -/

/-- Events that BUSY does not listen to (R26). -/
def IgnoredInBusy (e : PortEvent) : Prop := e = .rspReady ∨ ∃ w, e = .command w

section Waiting
variable {s : State}

theorem State.withInputs_self (s : State) : s.withInputs s.inputs = s := rfl

/-- In BUSY a step without an answer or `rst` drops the event that comes next, if any, and does nothing else. -/
theorem step_busy_ignores (hp : s.phase = .busy) (hev : ∀ e ∈ s.inputs, IgnoredInBusy e) :
    step s = .next (s.withInputs s.inputs.tail) := by
  rcases hin : s.inputs with _ | ⟨e, es⟩
  · rw [step_nil hin, List.tail_nil, ← hin, State.withInputs_self]
  · rw [step_cons hin, List.tail_cons]
    rcases hev e (hin ▸ List.mem_cons_self) with rfl | ⟨w, rfl⟩
    · exact onEvent_rspReady_ignored (by simp [hp])
    · exact onEvent_command_ignored (by simp [hp])

/-- However many steps it takes, a block in BUSY only loses the events it does not listen to. -/
theorem core_run_busy_ignores (n : Nat) (hp : s.phase = .busy) (hev : ∀ e ∈ s.inputs, IgnoredInBusy e) :
    Host.Core.run core n s = .next (s.withInputs (s.inputs.drop n)) := by
  induction n generalizing s with
  | zero => exact core_run_zero s
  | succ n ih =>
    have hrest : ∀ e ∈ (s.withInputs s.inputs.tail).inputs, IgnoredInBusy e :=
      fun e he => hev e (List.mem_of_mem_tail he)
    rw [core_run_next (step_busy_ignores hp hev), ih (by exact hp) hrest, State.withInputs_inputs, List.drop_tail]
    rfl

end Waiting

/-- Settles O8: the run changes the event list only. -/
theorem noTimeout : Obligations.NoTimeout := by
  intro s n hp hev
  have hready : (s.withInputs (s.inputs.drop n)).cmdReady = false := by simp [State.cmdReady, hp]
  exact ⟨_, core_run_busy_ignores n hp hev, hp, hready, rfl, rfl, rfl, rfl, rfl, rfl⟩

/-! ## INIT waits for an answer (R175) -/

theorem exec_init_waits {s : State} {r : Fin 16 → Byte × Byte} {k : Fin 16} {es : List PortEvent}
    (hin : s.inputs = okAnswers k.val r ++ es) (hno : NoAnswerNext es)
    (h : EchoesUpTo s.cfg.finalEchoCheck r k.val) :
    exec .init s = .next ((runFirst k.val r s).request k initSeq[k].1 initSeq[k].2) := by
  have hwait : NoAnswerNext (runFirst k.val r s).inputs := (runFirst_inputs hin).symm ▸ hno
  rw [exec_init_run hin h, finRange_drop, initLoop, busWrite_wait hwait]

/-- Settles O40: the run of `n` transfers, then the request of transfer `n`, which delivers nothing. -/
theorem initWaits : Obligations.InitWaits := by
  intro s r n es hin hno h
  exact ⟨_, exec_init_waits hin hno h, rfl, rfl, rfl, ⟨runFirst_initialized .., runFirst_chEn ..⟩,
    runFirst_inputs hin, runFirst_transfers .., handshakeBytes_runFirst n.val r s⟩

end Sys2Proof.Machine
end
